-- ==== Sys2Proof/Word.lean ====
section
/-! DEFINITION. The plain words of the part: bytes, ring times, and the numbers by which zones, trains, switches and
field nodes are known (00_scope.md, 6.2, 6.3 and 6.6). -/

namespace Sys2Proof

/-- A byte of a ring frame. -/
abbrev Byte := BitVec 8

/-- Ring time: a 32-bit count of 100 µs ticks that wraps (00_scope.md, 6.2). -/
abbrev RingTime := BitVec 32

/-- Zones Z0 to Z31. -/
abbrev ZoneId := Fin 32

/-- Trains T1 to T8; `T(n + 1)` is the value `n`. -/
abbrev TrainId := Fin 8

/-- Switches SW0 to SW15, the slot numbers of the switch table. -/
abbrev SwitchId := Fin 16

/-- Field nodes 1 to 61; the node of address `a` is the value `a - 1`. -/
abbrev NodeId := Fin 61

/-- A channel of a field node, 0 to 15. -/
abbrev Channel := Fin 16

/-- The entries of the e-stop list and of the placement list. -/
abbrev EntryId := Fin 8

/-- The slots of the route table. -/
abbrev RouteId := Fin 64

/-- Every zone in ascending order. -/
def allZones : List ZoneId := List.finRange 32

/-- Every train in ascending order. -/
def allTrains : List TrainId := List.finRange 8

/-- Every switch slot in ascending order. -/
def allSwitches : List SwitchId := List.finRange 16

/-- Every field node in ascending order of address. -/
def allNodes : List NodeId := List.finRange 61

/-- Every channel in ascending order. -/
def allChannels : List Channel := List.finRange 16

/-- Every e-stop or placement entry in ascending order. -/
def allEntries : List EntryId := List.finRange 8

/-- Every route slot in ascending order. -/
def allRoutes : List RouteId := List.finRange 64

end Sys2Proof
end

