-- ==== Sys2Proof/Syntax.lean ====
section
/-! DEFINITION. The commands of the part: one constructor for each row of spec/opcode_table.json, with the row's
operands.  A command is one whole, indivisible step (95_what_each_step_holds.md): a symbol or a frame on a port, a
management request, an expiry, or a change of a line.

Frames are kept as the bytes of 11_frame_and_record_formats.md, 11.2, so that a frame the part forwards leaves with
its reserved bits as received (R187).  The CRC bytes are not kept: an intact frame's CRC is the CRC of its other
bytes (R146). -/

namespace Sys2Proof

/-- The two input ports (00_scope.md, 2). -/
inductive InPort where
  /-- C-in: frames from the ride controller. -/
  | cIn
  /-- F-in: frames that return from the field. -/
  | fIn
  deriving DecidableEq, Repr

/-- The two output ports (00_scope.md, 2). -/
inductive OutPort where
  /-- F-out: frames to the field. -/
  | fOut
  /-- C-out: frames to the ride controller. -/
  | cOut
  deriving DecidableEq, Repr

/-- A whole frame less its CRC (11.2).  The length byte is the length of the payload. -/
structure Frame where
  dest : Byte
  src : Byte
  ftype : Byte
  payload : List Byte
  deriving DecidableEq, Repr

/-- A byte as it arrives on the line, with the parity bit that came with it (R145). -/
structure RxSymbol where
  data : Byte
  parity : Bool
  deriving DecidableEq, Repr

/-- The commands, in the order of spec/opcode_table.json.  A management request carries its tag and the bytes of its
payload after the request code (11.3). -/
inductive Instr where
  | frameStart (port : InPort)
  | fragmentTimeout (port : InPort)
  | frameDrop (port : InPort) (rx : List RxSymbol)
  | cycleStart (f : Frame)
  | commandFrame (f : Frame)
  | cinFrameForward (f : Frame)
  | reportFrame (f : Frame)
  | finFrameForward (f : Frame)
  | commandTransmit
  | broadcastHoldFrame
  | foutFrameTransmit
  | linkFaultFrame
  | mgmtResponse
  | coutUpstreamTransmit
  | eventFrame
  | resetResponseSent
  | ringTimeTick
  | trapExpiry (z : ZoneId)
  | transitExpiry (z : ZoneId)
  | releaseTimer (z : ZoneId)
  | gapExpiry
  | switchTimer
  | supervisionTimer (z : ZoneId)
  | refusalExpiry (z : ZoneId)
  | broadcastRepetition
  | silenceTimer
  | fieldLinkTimer
  | linkFaultRepetition
  | maintKeyChange (active : Bool)
  | powerOn
  | resetLine
  | supplyLow
  | supplyWarnBegin
  | supplyWarnEnd
  | resetEnd (supplyWarn : Bool)
  | identify (tag : Byte) (args : List Byte)
  | status (tag : Byte) (args : List Byte)
  | clearFlags (tag : Byte) (args : List Byte)
  | setModeRun (tag : Byte) (args : List Byte)
  | setModeMaint (tag : Byte) (args : List Byte)
  | setModeConfig (tag : Byte) (args : List Byte)
  | arm (tag : Byte) (args : List Byte)
  | restore (tag : Byte) (args : List Byte)
  | stop (tag : Byte) (args : List Byte)
  | tableWrite (tag : Byte) (args : List Byte)
  | tableRead (tag : Byte) (args : List Byte)
  | tablesErase (tag : Byte) (args : List Byte)
  | queryZone (tag : Byte) (args : List Byte)
  | queryTrain (tag : Byte) (args : List Byte)
  | overrideRelease (tag : Byte) (args : List Byte)
  | reconcilePlace (tag : Byte) (args : List Byte)
  | reconcileRemove (tag : Byte) (args : List Byte)
  | reconcileClear (tag : Byte) (args : List Byte)
  | setDivert (tag : Byte) (args : List Byte)
  | eventCtrl (tag : Byte) (args : List Byte)
  | countersRead (tag : Byte) (args : List Byte)
  | countersClear (tag : Byte) (args : List Byte)
  | healthRead (tag : Byte) (args : List Byte)
  | healthReset (tag : Byte) (args : List Byte)
  | reset (tag : Byte) (args : List Byte)
  | unknownRequest (tag code : Byte) (args : List Byte)
  | responseFull (tag code : Byte) (args : List Byte)
  | malformedMgmtRequest (payload : List Byte)
  | transmissionEnd (port : OutPort)
  | lineIdleAfterReset (port : InPort)
  deriving DecidableEq, Repr

end Sys2Proof
end

