-- ==== Sys2Proof/Decode.lean ====
section
/-! DEFINITION. Decoding a table word.  No row of spec/opcode_table.json gives a command any bits: a command is an event
on a port, a line or a timer, not a word. -/

namespace Sys2Proof

/-- The command that a word spells by the bits of the opcode table: none, since no row gives bits. -/
def decodeTableWord (_nbits _w : Nat) : Option Instr := none

end Sys2Proof
end

