-- ==== Sys2Proof/Config.lean ====
section
/-! DEFINITION. What one implementation fixes: the constants that IDENTIFY reports and the capacities of the part.
The revision number is the one value the manual leaves to the part; it is a free value. -/

namespace Sys2Proof

/-- FREE VALUE (assumption log 1): the revision number of the part, which R168 reports and the manual does not give. -/
opaque Config.revision : Byte

/-- The Morwesa family code (11.3: "family code 0Bh"). -/
def Config.familyCode : Byte := 0x0B

/-- The part number 4810, 12CAh (11.3). -/
def Config.partNumber : BitVec 16 := 4810

/-- A forward queue holds up to 16 frames (R150). -/
def Config.forwardCapacity : Nat := 16

/-- The response queue holds 0 to 8 responses (R164). -/
def Config.responseCapacity : Nat := 8

/-- The event queue holds 0 to 32 records (R176). -/
def Config.eventCapacity : Nat := 32

/-- The largest payload of a frame (11.2). -/
def Config.maxPayload : Nat := 48

/-- A switch may be held by at most 8 routes (R70, R85). -/
def Config.maxHolders : Nat := 8

/-- The largest difference of ring time that is adopted silently, in ticks (R155). -/
def Config.timeTolerance : Nat := 100

end Sys2Proof
end

