-- ==== Sys2Proof/Machine/RingTime.lean ====
section
/-! DEFINITION. The one comparison and the one elapsed time of ring times (R49, R50), and when an expiry is due (R51). -/

namespace Sys2Proof.Machine

/-- `t` is after `a` (R49). -/
def isAfter (t a : RingTime) : Bool :=
  decide (0 < (t - a).toNat) && decide ((t - a).toNat < 2147483648)

/-- `t` is at or after `a`: equal or after (R49). -/
def atOrAfter (t a : RingTime) : Bool :=
  decide ((t - a).toNat < 2147483648)

/-- The elapsed time in ticks from `a` to `b`, 0 when `b` is before `a` (R50). -/
def elapsed (a b : RingTime) : Nat :=
  if atOrAfter b a then (b - a).toNat else 0

/-- A ring time plus a duration in ticks, modulo 2^32 (R50). -/
def addTicks (a : RingTime) (n : Nat) : RingTime :=
  a + BitVec.ofNat 32 n

/-- A duration in milliseconds as ticks (R50). -/
def msTicks (ms : Nat) : Nat := ms * 10

/-- A timestamp after the current ring time is replaced by the current ring time (R28). -/
def clampTime (now t : RingTime) : RingTime :=
  if isAfter t now then now else t

/-- A pending expiry is due when ring time is at or after its expiry ring time (R51).  At a difference of exactly 2^31 ring
time is before the expiry time by R49, and the expiry is not due, against the third consequence of R51 and R62 (DESIGN CHOICE,
assumption log 27). -/
def isDue (now : RingTime) (expiry : Option RingTime) : Bool :=
  match expiry with
  | none => false
  | some t => atOrAfter now t

end Sys2Proof.Machine
end

