-- ==== Sys2Proof/Machine/State.lean ====
section
/-! DEFINITION. The state of the part: the nine blocks of 00_scope.md, 3, the lines, and the queue of waiting commands.
Every piece of state the manual names has one field here; a queue is a list with its oldest entry first.  INVENTORY.md
lists the fields with the rule that names each and its reset value. -/

namespace Sys2Proof.Machine

/-! ## Enumerations (11.4) -/

/-- Node classes (R3). -/
inductive NodeClass where
  | free | sensor | hold | switch | stationIo
  deriving DecidableEq, Repr

/-- Zone kinds (R4). -/
inductive ZoneKind where
  | station | lift | launch | block | storage
  deriving DecidableEq, Repr

/-- Branch rules (R5, R71). -/
inductive BranchRule where
  | fixedA | alternate | firstFree | divert
  deriving DecidableEq, Repr

/-- A branch of a diverging zone, and equally a position of a switch (R7, R8). -/
inductive Branch where
  | a | b
  deriving DecidableEq, Repr

/-- Unlisted policy (R11). -/
inductive UnlistedPolicy where
  | pass | drop
  deriving DecidableEq, Repr

/-- Zone states (R20). -/
inductive ZoneState where
  | unarmed | free | reserved | moving | held | releasing | fault | outOfService
  deriving DecidableEq, Repr

/-- Trap states (R20). -/
inductive TrapState where
  | none | pending | done | expired
  deriving DecidableEq, Repr

/-- Fault reasons of a zone (2.9). -/
inductive FaultReason where
  | unexpectedEntry | overlapExceeded | unexpectedPresence | lateArrival
  | lost | clearBeforeEntry | stuck | edgeLoss
  deriving DecidableEq, Repr

/-- Train states (R25). -/
inductive TrainState where
  | absent | present | lost
  deriving DecidableEq, Repr

/-- Origins of a route request (R64). -/
inductive Origin where
  | autoEntry | level
  deriving DecidableEq, Repr

/-- Phases of an active route (R80). -/
inductive Phase where
  | set | committed
  deriving DecidableEq, Repr

/-- The interlock's decision for one hold device (R89). -/
inductive Permit where
  | hold | opened
  deriving DecidableEq, Repr

/-- The two values of a hold output (00_scope.md, 6.5). -/
inductive HoldValue where
  | hold | release
  deriving DecidableEq, Repr

/-- Supervision states of a hold device (R98). -/
inductive SupState where
  | unsupervised | settled | awaiting | deviating | faulted
  deriving DecidableEq, Repr

/-- Gap states (R61). -/
inductive GapState where
  | met | running
  deriving DecidableEq, Repr

/-- Operating modes (R124). -/
inductive Mode where
  | config | stopped | runAuto | runManual | maint
  deriving DecidableEq, Repr

/-- The eleven hold-all causes (7.2), in the order of their codes. -/
inductive Cause where
  | tracking | overspeed | device | switch | silence | fieldLink | time | estop | supply | stopRequest | key
  deriving DecidableEq, Repr

/-- Conditions that RESTORE tests (R137), in the order of their codes and of the test. -/
inductive Condition where
  | estopActive | controllerSilent | fieldLinkDown | supplyWarning | deviceLatch | maintKey
  deriving DecidableEq, Repr

/-- Reset causes (R186). -/
inductive ResetCause where
  | powerOn | supplyLow | resetLine | resetRequest
  deriving DecidableEq, Repr

/-- Reasons of a ROUTE_FAILED record (R88). -/
inductive RouteFailure where
  | switchTimeout | switchLocks | claimLost | withdrawn | cancelled
  deriving DecidableEq, Repr

/-- Reasons of a SWITCH_FAULT record (R88). -/
inductive SwitchFailure where
  | timeout | bothLocks | lockLost
  deriving DecidableEq, Repr

/-- Reasons of a DISPATCH_REFUSED record (R123), each with what it reports beside itself. -/
inductive Refused where
  | notReady (position : Nat) | gap | readyLost (position : Nat)
  deriving DecidableEq, Repr

/-- Reasons of a DEVICE_FAULT record (R101). -/
inductive DeviceFailure where
  | noOpen | noClose | uncommanded | bothFeedback
  deriving DecidableEq, Repr

/-- Event classes (9.8). -/
inductive EventClass where
  | tracking | dispatch | fault | health
  deriving DecidableEq, Repr

/-- Result codes of a response (R165), in the order of their codes. -/
inductive Result where
  | success | unknownRequest | badMode | badValue | tainted | notSynchronized | validationFailed | notSettled
  | faultPresent | conditionPresent | noKey | overrideLocked | notPreceded | staleEpoch | badState | sensorDisagrees
  deriving DecidableEq, Repr

/-! ## The table store (01_circuit_description_tables.md) -/

/-- A present sensor reference: an input of a field node (00_scope.md, 6.4). -/
structure SensorRef where
  node : NodeId
  ch : Channel
  deriving DecidableEq, Repr

/-- A zone record (R5).  Lengths are in millimetres, speeds in mm/s, times in milliseconds. -/
structure ZoneRec where
  kind : ZoneKind
  inService : Bool
  passThrough : Bool
  holdNode : NodeId
  holdCh : Channel
  openFb : Channel
  closedFb : Channel
  trapA : SensorRef
  trapB : Option SensorRef
  trapGap : BitVec 16
  stop : SensorRef
  clear : SensorRef
  vMin : BitVec 16
  vRef : BitVec 16
  vMax : BitVec 16
  tMin : BitVec 16
  tMax : BitVec 16
  tClear : BitVec 16
  fbLimit : BitVec 16
  succA : ZoneId
  succB : Option ZoneId
  rule : BranchRule
  ready : List SensorRef
  deriving DecidableEq, Repr

/-- A claim of a route (R7). -/
inductive Claim where
  | reserve (z : ZoneId)
  | flank (z : ZoneId)
  | switch (n : NodeId) (p : Branch)
  deriving DecidableEq, Repr

/-- A route record (R7).  The claim count is the length of the list. -/
structure RouteRec where
  zone : ZoneId
  branch : Branch
  claims : List Claim
  deriving DecidableEq, Repr

/-- A switch record (R8). -/
structure SwitchRec where
  node : NodeId
  posCh : Channel
  lockA : Channel
  lockB : Channel
  inService : Bool
  deriving DecidableEq, Repr

/-- A placement entry (R9). -/
structure Placement where
  train : TrainId
  zone : ZoneId
  deriving DecidableEq, Repr

/-- The device parameters (R11), times in milliseconds. -/
structure Params where
  cyclePeriod : Byte
  silenceLimit : BitVec 16
  unlisted : UnlistedPolicy
  dispatchGap : BitVec 32
  switchLimit : BitVec 16
  slowThreshold : BitVec 16
  lapThreshold : BitVec 32
  deriving DecidableEq, Repr

/-- The defaults of R11. -/
def Params.default : Params where
  cyclePeriod := 10
  silenceLimit := 200
  unlisted := .drop
  dispatchGap := 0
  switchLimit := 5000
  slowThreshold := 0
  lapThreshold := 0

/-- The table store (R1): an unloaded slot is `none`. -/
structure Store where
  nodes : Vector (Option NodeClass) 61
  zones : Vector (Option ZoneRec) 32
  routes : Vector (Option RouteRec) 64
  switches : Vector (Option SwitchRec) 16
  placement : Vector (Option Placement) 8
  estops : Vector (Option SensorRef) 8
  params : Params
  deriving DecidableEq, Repr

/-- The store after every reset and after TABLES_ERASE (R1, R173). -/
def Store.erased : Store where
  nodes := Vector.replicate 61 none
  zones := Vector.replicate 32 none
  routes := Vector.replicate 64 none
  switches := Vector.replicate 16 none
  placement := Vector.replicate 8 none
  estops := Vector.replicate 8 none
  params := .default

/-! ## The Frame Classifier (R45) -/

/-- The latest input levels and the last edge counter of each field node; `none` is unknown or absent. -/
structure Classifier where
  levels : Vector (Option (BitVec 16)) 61
  lastCounter : Vector (Option Byte) 61
  deriving DecidableEq, Repr

/-! ## The Tracking Unit -/

/-- The dynamic record of a zone (R20), its pause mark (R58), its three timers (2.8) and its flank count (R87). -/
structure ZoneDyn where
  state : ZoneState
  occupant : Option TrainId
  epoch : BitVec 16
  entryTime : Option RingTime
  trap : TrapState
  speed : Option (BitVec 16)
  deadline : Option RingTime
  remainder : Option (BitVec 32)
  pauseMark : Bool
  reason : Option FaultReason
  lastBranch : Branch
  trapExpiry : Option RingTime
  transitExpiry : Option RingTime
  releaseTimer : Option RingTime
  flank : Nat
  deriving DecidableEq, Repr

/-- A zone after every reset (R20, R58, R87). -/
def ZoneDyn.reset : ZoneDyn where
  state := .unarmed
  occupant := none
  epoch := 0
  entryTime := none
  trap := .none
  speed := none
  deadline := none
  remainder := none
  pauseMark := false
  reason := none
  lastBranch := .b
  trapExpiry := none
  transitExpiry := none
  releaseTimer := none
  flank := 0

/-- A train record (R23). -/
structure TrainRec where
  state : TrainState
  head : Option ZoneId
  tail : Option ZoneId
  reserved : Option ZoneId
  lastSpeed : Option (BitVec 16)
  divert : Bool
  laps : BitVec 32
  serviceDue : Bool
  deriving DecidableEq, Repr

/-- A train after every reset (R23). -/
def TrainRec.reset : TrainRec where
  state := .absent
  head := none
  tail := none
  reserved := none
  lastSpeed := none
  divert := false
  laps := 0
  serviceDue := false

/-- The zone table and the roster (2.1, 2.2). -/
structure Tracking where
  zones : Vector ZoneDyn 32
  trains : Vector TrainRec 8
  deriving DecidableEq, Repr

/-! ## The Route Setter (R63) -/

/-- A route request (R64) with its refusal expiry (R112). -/
structure Request where
  zone : ZoneId
  train : TrainId
  origin : Origin
  posted : RingTime
  reported : Bool
  refusal : Option RingTime
  deriving DecidableEq, Repr

/-- The SETTING state: the request being set, its branch and the index of the claim being executed (R63). -/
structure Setting where
  zone : ZoneId
  train : TrainId
  origin : Origin
  branch : Branch
  index : Nat
  deriving DecidableEq, Repr

/-- An active route (R80).  `locks` are the claims after the RESERVE, in list order. -/
structure ActiveRoute where
  zone : ZoneId
  train : TrainId
  branch : Branch
  succ : ZoneId
  locks : List Claim
  phase : Phase
  deriving DecidableEq, Repr

/-- The dynamic record of a switch (R85).  `commanded = none` is UNKNOWN. -/
structure SwitchDyn where
  commanded : Option Branch
  holders : Nat
  inService : Bool
  lockLost : Bool
  deriving DecidableEq, Repr

/-- A switch after every reset (R63). -/
def SwitchDyn.reset : SwitchDyn where
  commanded := none
  holders := 0
  inService := false
  lockLost := false

/-- The Route Setter (R63).  `setting = none` is IDLE; the claim last pushed stands first in `stack`. -/
structure RouteSetter where
  setting : Option Setting
  requests : List Request
  stack : List Claim
  routes : List ActiveRoute
  switches : Vector SwitchDyn 16
  timer : Option RingTime
  deriving DecidableEq, Repr

/-! ## The Command Filter (R91) -/

/-- The record of a hold device, kept under the number of its zone (R91). -/
structure DeviceRec where
  permit : Permit
  asSent : Option HoldValue
  forwarded : Option HoldValue
  sup : SupState
  timer : Option RingTime
  changeTime : Option RingTime
  latch : Bool
  deriving DecidableEq, Repr

/-- A device after every reset, at ARM and on entering CONFIG (R91). -/
def DeviceRec.reset : DeviceRec where
  permit := .hold
  asSent := none
  forwarded := none
  sup := .unsupervised
  timer := none
  changeTime := none
  latch := false

/-! ## The Dispatch Unit (R61, R108) -/

/-- The last-dispatch time, the gap state and the gap expiry (R61). -/
structure Dispatch where
  last : Option RingTime
  gap : GapState
  expiry : Option RingTime
  deriving DecidableEq, Repr

/-- The Dispatch Unit after every reset, at ARM and on entering CONFIG (R62). -/
def Dispatch.reset : Dispatch where
  last := none
  gap := .met
  expiry := none

/-! ## The Mode Controller (R124) -/

/-- The Mode Controller.  `causes` holds the cause set in the order of the codes; an e-stop memory `none` is unknown. -/
structure ModeCtl where
  mode : Mode
  latch : Bool
  causes : List Cause
  first : Option Cause
  budget : Fin 6
  estopMem : Vector (Option Bool) 8
  healthy : Bool
  deriving DecidableEq, Repr

/-! ## The Ring Path Unit (R145, R151, R154, R157) -/

/-- The state of an input port (R145); `waitIdle` is the state after a reset, until the line has been idle for more
than 8 byte times (R162). -/
inductive RxState where
  | waitIdle | idle | receiving
  deriving DecidableEq, Repr

/-- A frame in transmission on C-out; the mark tells the RESET response from every other frame (R167). -/
structure CoutFrame where
  frame : Frame
  isReset : Bool
  deriving DecidableEq, Repr

/-- The Ring Path Unit.  An output port holding `none` is IDLE. -/
structure RingPath where
  ringTime : RingTime
  synced : Bool
  cIn : RxState
  fIn : RxState
  fOut : Option Frame
  cOut : Option CoutFrame
  down : List Frame
  up : List Frame
  bcastPending : Bool
  bcastTimer : Option RingTime
  silent : Bool
  silenceTimer : Option RingTime
  lastCycleStart : Option RingTime
  linkDown : Bool
  linkTimer : Option RingTime
  lastFinStart : Option RingTime
  repTimer : Option RingTime
  linkFaultPending : Bool
  linkFaultCount : BitVec 16
  deriving DecidableEq, Repr

/-! ## The Management Unit (09_management_requests_and_event_reporting.md) -/

/-- What an event record tells, by kind (11.5). -/
inductive EventBody where
  | zoneEntered (left : ZoneId)
  | trainHeld (speed : Option (BitVec 16))
  | trainReleased (passThrough : Bool)
  | zoneCleared
  | earlyArrival (ms : Nat)
  | underspeed (speed : BitVec 16)
  | trapExpired
  | lateStop
  | routeSet (branch : Branch)
  | routeFailed (reason : RouteFailure)
  | dispatched (laps : BitVec 32)
  | dispatchRefused (reason : Refused)
  | trackingFault (reason : FaultReason)
  | overspeed (speed : BitVec 16)
  | deviceFault (reason : DeviceFailure)
  | switchFault (reason : SwitchFailure) (node : NodeId)
  | holdAll (cause : Cause) (latched : Bool) (entry : Option EntryId)
  | modeChanged (before after : Mode)
  | linkFault (lastStart : Option RingTime)
  | silence (lastCycleStart : Option RingTime)
  | healthSlow (count : BitVec 16)
  | healthStray (node : NodeId)
  | healthEdgeLoss (node : NodeId)
  | serviceDue (laps : BitVec 32)
  deriving DecidableEq, Repr

/-- An event record as queued (R176, 11.5). -/
structure EventRecord where
  seq : BitVec 16
  time : RingTime
  zone : Option ZoneId
  train : Option TrainId
  body : EventBody
  deriving DecidableEq, Repr

/-- The batch sizes of event reporting (R177). -/
inductive BatchSize where
  | off | one | two | four
  deriving DecidableEq, Repr

/-- The class mask (R177); the class FAULT is always enabled and has no field. -/
structure EventMask where
  tracking : Bool
  dispatch : Bool
  health : Bool
  deriving DecidableEq, Repr

/-- A reporting setting (R177). -/
structure Reporting where
  batch : BatchSize
  mask : EventMask
  deriving DecidableEq, Repr

/-- A MGMT_RESPONSE (R165). -/
structure Response where
  tag : Byte
  code : Byte
  result : Result
  data : List Byte
  deriving DecidableEq, Repr

/-- A precedence record that is not empty (R166); `zone` is the zone byte of a QUERY_ZONE. -/
structure Precedence where
  code : Byte
  zone : Option Byte
  success : Bool
  deriving DecidableEq, Repr

/-- The Management Unit: response queue, precedence record, RESET_PENDING, the four sticky status flags (the other three
follow other state, R170), the event queue and the reporting settings. -/
structure Mgmt where
  responses : List Response
  precedence : Option Precedence
  resetPending : Bool
  frameError : Bool
  loadTainted : Bool
  evqOverflow : Bool
  healthAlert : Bool
  events : List EventRecord
  seq : BitVec 16
  reporting : Reporting
  setting : Option Reporting
  signature : Option (BitVec 16)
  deriving DecidableEq, Repr

/-! ## Counters and Health (10_counters_health_limits_and_reset_causes.md) -/

/-- The frame counters of an input port (R179); RESPONSE_FULL is raised on C-in only. -/
structure InCounters where
  received : BitVec 32
  parity : BitVec 32
  lengthRange : BitVec 32
  lengthMismatch : BitVec 32
  crc : BitVec 32
  fragment : BitVec 32
  queueFull : BitVec 32
  responseFull : BitVec 32
  deriving DecidableEq, Repr

/-- Every counter of an input port at 0. -/
def InCounters.zero : InCounters := ⟨0, 0, 0, 0, 0, 0, 0, 0⟩

/-- The frame counters of F-out (R179). -/
structure FoutCounters where
  forwarded : BitVec 32
  unlisted : BitVec 32
  configDrop : BitVec 32
  overridden : BitVec 32
  deriving DecidableEq, Repr

/-- Every counter of F-out at 0. -/
def FoutCounters.zero : FoutCounters := ⟨0, 0, 0, 0⟩

/-- The health counts of a field node (R181). -/
structure NodeHealth where
  stray : BitVec 16
  edgeLoss : BitVec 16
  alerted : Bool
  deriving DecidableEq, Repr

/-- A node's health after every reset and after HEALTH_RESET (R181). -/
def NodeHealth.zero : NodeHealth := ⟨0, 0, false⟩

/-- The health counts of the hold device of a zone (R182). -/
structure DeviceHealth where
  operations : BitVec 32
  slow : BitVec 16
  overrides : BitVec 16
  alerted : Bool
  deriving DecidableEq, Repr

/-- A device's health after every reset and after HEALTH_RESET (R182). -/
def DeviceHealth.zero : DeviceHealth := ⟨0, 0, 0, false⟩

/-- Counters and Health.  A train's lap count and service-due flag stand in its train record (R23). -/
structure Counters where
  cIn : InCounters
  fIn : InCounters
  fOut : FoutCounters
  cOutForwarded : BitVec 32
  nodes : Vector NodeHealth 61
  devices : Vector DeviceHealth 32
  deriving DecidableEq, Repr

/-- All of Counters and Health after every reset (R179, R181, R182). -/
def Counters.reset : Counters where
  cIn := .zero
  fIn := .zero
  fOut := .zero
  cOutForwarded := 0
  nodes := Vector.replicate 61 .zero
  devices := Vector.replicate 32 .zero

/-! ## Lines and resets -/

/-- The reset in progress and the reset cause record (R186), and the two inputs that are read as they stand: the
MAINT_KEY line (R134) and the supply against 2.95 V (R135). -/
structure Lines where
  inReset : Bool
  resetCause : ResetCause
  maintKey : Bool
  supplyWarn : Bool
  deriving DecidableEq, Repr

/-! ## The part and the state of the model -/

/-- Everything the manual gives the part, block by block (00_scope.md, 3). -/
structure Part where
  lines : Lines
  store : Store
  cls : Classifier
  trk : Tracking
  rs : RouteSetter
  devices : Vector DeviceRec 32
  dsp : Dispatch
  mc : ModeCtl
  ring : RingPath
  mgmt : Mgmt
  cnt : Counters
  deriving DecidableEq, Repr

/-- The part at the end of a reset (R162 and the reset column of every block), for the cause recorded, the override
budget the reset leaves (R143) and the two lines as they stand. -/
def Part.afterReset (cause : ResetCause) (budget : Fin 6) (maintKey supplyWarn : Bool) : Part where
  lines := { inReset := false, resetCause := cause, maintKey := maintKey, supplyWarn := supplyWarn }
  store := .erased
  cls := { levels := Vector.replicate 61 none, lastCounter := Vector.replicate 61 none }
  trk := { zones := Vector.replicate 32 .reset, trains := Vector.replicate 8 .reset }
  rs :=
    { setting := none, requests := [], stack := [], routes := [], switches := Vector.replicate 16 .reset
      timer := none }
  devices := Vector.replicate 32 .reset
  dsp := .reset
  mc :=
    { mode := .config, latch := false, causes := [], first := none, budget := budget
      estopMem := Vector.replicate 8 none, healthy := false }
  ring :=
    { ringTime := 0, synced := false, cIn := .waitIdle, fIn := .waitIdle, fOut := none, cOut := none
      down := [], up := [], bcastPending := false, bcastTimer := none
      silent := false, silenceTimer := some 2000, lastCycleStart := none
      linkDown := false, linkTimer := some 200, lastFinStart := none
      repTimer := none, linkFaultPending := false, linkFaultCount := 0 }
  mgmt :=
    { responses := [], precedence := none, resetPending := false
      frameError := false, loadTainted := false, evqOverflow := false, healthAlert := false
      events := [], seq := 0, reporting := { batch := .off, mask := ⟨true, true, true⟩ }, setting := none
      signature := none }
  cnt := .reset

/-- The state of the model: the commands that wait, oldest first, and the part. -/
structure State where
  pending : List Instr
  part : Part
  deriving DecidableEq, Repr

/-- The part right after a power-on reset has ended (R162, R186), with nothing waiting.  DESIGN CHOICE (assumption
log 3): the MAINT_KEY line stands inactive and the supply stands at or above 2.95 V. -/
def State.reset : State where
  pending := []
  part := .afterReset .powerOn 5 false false

/-- Faults of the model.  There is none: the manual gives every command an effect in every state of the part, so no
command stops the machine (assumption log 2). -/
inductive Fault where
  deriving DecidableEq, Repr

/-- Refusals of the model. -/
inductive Refusal where
  /-- Raised by an arm of `exec` whose command has no meaning yet; safe, since the machine stops where the part goes
  on.  No arm raises it. -/
  | notModelled (mnemonic : String)
  deriving DecidableEq, Repr

end Sys2Proof.Machine
end

