-- ==== Sys2Proof/Machine/Wire.lean ====
section
/-! DEFINITION. Frames on the wire: the CRC-16 and the frame checker (R146), the address and payload fields of a frame
(11.2, R187), and the layouts of REPORT, COMMAND and CYCLE_START payloads. -/

namespace Sys2Proof.Machine

/-! ## Bytes -/

/-- Two bytes, most significant first (11_frame_and_record_formats.md). -/
def be16 (v : BitVec 16) : List Byte := [v.extractLsb' 8 8, v.extractLsb' 0 8]

/-- Three bytes, most significant first. -/
def be24 (v : BitVec 24) : List Byte := [v.extractLsb' 16 8, v.extractLsb' 8 8, v.extractLsb' 0 8]

/-- Four bytes, most significant first. -/
def be32 (v : BitVec 32) : List Byte :=
  [v.extractLsb' 24 8, v.extractLsb' 16 8, v.extractLsb' 8 8, v.extractLsb' 0 8]

/-- The 16-bit field of two bytes, the first the more significant. -/
def join16 (hi lo : Byte) : BitVec 16 := hi ++ lo

/-- The 32-bit field of four bytes, the first the most significant. -/
def join32 (b3 b2 b1 b0 : Byte) : BitVec 32 := b3 ++ b2 ++ b1 ++ b0

/-- The byte at an offset; a byte past the end reads as 0. -/
def byteAt (bs : List Byte) (i : Nat) : Byte := bs.getD i 0

/-- The 16-bit field at an offset. -/
def word16At (bs : List Byte) (i : Nat) : BitVec 16 := join16 (byteAt bs i) (byteAt bs (i + 1))

/-- The 32-bit field at an offset. -/
def word32At (bs : List Byte) (i : Nat) : BitVec 32 :=
  join32 (byteAt bs i) (byteAt bs (i + 1)) (byteAt bs (i + 2)) (byteAt bs (i + 3))

/-- A flag: 0 clear, 1 set (11.1). -/
def flagByte (b : Bool) : Byte := if b then 1 else 0

/-! ## CRC-16 and the frame checker -/

/-- One bit into the CRC: generator x^16 + x^12 + x^5 + 1, most significant bit first (R146). -/
def crcBit (c : BitVec 16) (b : Bool) : BitVec 16 :=
  if (c.getLsbD 15 != b) then (c <<< 1) ^^^ 0x1021 else c <<< 1

/-- One byte into the CRC, bit 7 first. -/
def crcByte (c : BitVec 16) (b : Byte) : BitVec 16 :=
  [7, 6, 5, 4, 3, 2, 1, 0].foldl (fun c i => crcBit c (b.getLsbD i)) c

/-- The CRC-16 of R15 and R146: initial value all ones, no final inversion. -/
def crc16 (bs : List Byte) : BitVec 16 := bs.foldl crcByte 0xFFFF

/-- The number of ones in a byte is odd. -/
def oddOnes (b : Byte) : Bool :=
  [0, 1, 2, 3, 4, 5, 6, 7].foldl (fun acc i => acc != b.getLsbD i) false

/-- Odd parity: the byte and its parity bit hold an odd number of ones together (R145). -/
def parityOk (x : RxSymbol) : Bool := oddOnes x.data != x.parity

/-- The bytes of a frame before its CRC (11.2). -/
def frameBytes (f : Frame) : List Byte :=
  f.dest :: f.src :: f.ftype :: BitVec.ofNat 8 f.payload.length :: f.payload

/-- A byte as a sender puts it on the line, with odd parity. -/
def sendByte (b : Byte) : RxSymbol := { data := b, parity := !oddOnes b }

/-- A frame as it stands on the line between its two symbols, CRC high byte first (R146). -/
def frameOnLine (f : Frame) : List RxSymbol :=
  (frameBytes f ++ be16 (crc16 (frameBytes f))).map sendByte

/-- The drop reasons (R146). -/
inductive DropReason where
  | parity | lengthRange | lengthMismatch | crc | fragment
  deriving DecidableEq, Repr

/-- What the frame checker finds. -/
inductive RxCheck where
  | dropped (r : DropReason)
  | intact (f : Frame)
  deriving DecidableEq, Repr

/-- A port stores at most the largest frame, 54 bytes (R145, 11.2). -/
def storedBytes (rx : List RxSymbol) : List RxSymbol := rx.take 54

/-- The frame checker (R146): the first check that fails decides the reason. -/
def checkFrame (rx : List RxSymbol) : RxCheck :=
  let bs := (storedBytes rx).map RxSymbol.data
  let len := (byteAt bs 3).toNat
  if (storedBytes rx).any (fun x => !parityOk x) then .dropped .parity
  else if decide (4 ≤ rx.length) && decide (48 < len) then .dropped .lengthRange
  else if decide (rx.length < 6) || decide (rx.length - 6 ≠ len) then .dropped .lengthMismatch
  else if crc16 (bs.take (4 + len)) ≠ word16At bs (4 + len) then .dropped .crc
  else .intact { dest := byteAt bs 0, src := byteAt bs 1, ftype := byteAt bs 2, payload := (bs.drop 4).take len }

/-! ## Addresses and types -/

/-- A node address is bits 0 to 5 of its byte (R187). -/
def addrOf (b : Byte) : Nat := b.toNat % 64

/-- The field node of an address byte; absent for the addresses 0, 62 and 63. -/
def nodeOf (b : Byte) : Option NodeId :=
  if h : 1 ≤ addrOf b ∧ addrOf b ≤ 61 then some ⟨addrOf b - 1, by omega⟩ else none

/-- The address of a field node. -/
def nodeAddr (n : NodeId) : Nat := n.val + 1

/-- The address byte of a field node. -/
def nodeByte (n : NodeId) : Byte := BitVec.ofNat 8 (nodeAddr n)

/-- The channel of a channel byte, 0 to 15. -/
def channelOf (b : Byte) : Option Channel :=
  if h : b.toNat < 16 then some ⟨b.toNat, h⟩ else none

/-- The zone of a zone byte, 0 to 31. -/
def zoneOf (b : Byte) : Option ZoneId :=
  if h : b.toNat < 32 then some ⟨b.toNat, h⟩ else none

/-- The train of a train byte, 1 to 8 (11.1). -/
def trainOf (b : Byte) : Option TrainId :=
  if h : 1 ≤ b.toNat ∧ b.toNat ≤ 8 then some ⟨b.toNat - 1, by omega⟩ else none

/-- The byte of a zone number, an entry index or a channel. -/
def finByte {n : Nat} (i : Fin n) : Byte := BitVec.ofNat 8 i.val

/-- A zone byte; absent FFh (11.1). -/
def zoneByte (z : Option ZoneId) : Byte :=
  match z with
  | none => 0xFF
  | some z => finByte z

/-- A train byte; absent 0 (11.1). -/
def trainByte (t : Option TrainId) : Byte :=
  match t with
  | none => 0
  | some t => BitVec.ofNat 8 (t.val + 1)

/-- The frame types (11.2). -/
def typeCycleStart : Byte := 1
def typeCommand : Byte := 2
def typeReport : Byte := 3
def typeRequest : Byte := 4
def typeResponse : Byte := 5
def typeEvent : Byte := 6
def typeLinkFault : Byte := 7

/-- The address of the part (00_scope.md, 6.3). -/
def addrPart : Nat := 62

/-- The broadcast address (00_scope.md, 6.3). -/
def addrBroadcast : Nat := 63

/-! ## Payloads that the part reads -/

/-- The ring time of a CYCLE_START; absent when the length is not 4 (R188). -/
def cycleTimeOf (f : Frame) : Option RingTime :=
  match f.payload with
  | [b3, b2, b1, b0] => some (join32 b3 b2 b1 b0)
  | _ => none

/-- The fields of a COMMAND payload (11.2). -/
structure Command where
  flags : Byte
  outputs : BitVec 16
  deriving DecidableEq, Repr

/-- The fields of a COMMAND; absent when the length is not 3 (R188). -/
def commandOf (f : Frame) : Option Command :=
  match f.payload with
  | [fl, hi, lo] => some { flags := fl, outputs := join16 hi lo }
  | _ => none

/-- The broadcast-hold flag, bit 0 (11.2). -/
def Command.broadcastHold (c : Command) : Bool := c.flags.getLsbD 0

/-- The hold value on an output channel (11.2: 1 release, 0 hold). -/
def Command.holdValue (c : Command) (ch : Channel) : HoldValue :=
  if c.outputs.getLsbD ch.val then .release else .hold

/-- A COMMAND payload. -/
def Command.payload (c : Command) : List Byte := c.flags :: be16 c.outputs

/-- One edge of a REPORT (11.2). -/
structure Edge where
  ch : Channel
  rising : Bool
  time : RingTime
  deriving DecidableEq, Repr

/-- The fields of a REPORT from a field node (11.2). -/
structure Report where
  node : NodeId
  levels : BitVec 16
  counter : Byte
  edges : List Edge
  deriving DecidableEq, Repr

/-- One edge entry: channel in bits 0 to 3, direction in bit 7, bits 4 to 6 reserved, then the timestamp (11.2, R187). -/
def parseEdge (c b3 b2 b1 b0 : Byte) : Edge where
  ch := ⟨c.toNat % 16, Nat.mod_lt _ (by decide)⟩
  rising := c.getLsbD 7
  time := join32 b3 b2 b1 b0

/-- The edge entries of a REPORT, in list order; absent when the bytes are not whole entries. -/
def parseEdges : List Byte → Option (List Edge)
  | [] => some []
  | c :: b3 :: b2 :: b1 :: b0 :: rest =>
    match parseEdges rest with
    | none => none
    | some es => some (parseEdge c b3 b2 b1 b0 :: es)
  | _ => none

/-- The report a REPORT frame carries; absent when its source is no field node (R149) or when its length is not 4 + 5n
or n is above 8 (R188). -/
def reportOf (f : Frame) : Option Report :=
  match nodeOf f.src, f.payload with
  | some n, hi :: lo :: c :: k :: rest =>
    if k.toNat ≤ 8 ∧ rest.length = 5 * k.toNat then
      match parseEdges rest with
      | some es => some { node := n, levels := join16 hi lo, counter := c, edges := es }
      | none => none
    else none
  | _, _ => none

end Sys2Proof.Machine
end

