-- ==== Sys2Proof/Machine/Formats.lean ====
section
/-! DEFINITION. The codes of 11.4, the field encodings of 11.1, the event records of 11.5 and the frames the part
originates (11.2). -/

namespace Sys2Proof.Machine

/-! ## Codes (11.4) -/

def NodeClass.code : NodeClass → Byte
  | .free => 1 | .sensor => 2 | .hold => 3 | .switch => 4 | .stationIo => 5

def NodeClass.ofCode (b : Byte) : Option NodeClass :=
  match b.toNat with
  | 1 => some .free | 2 => some .sensor | 3 => some .hold | 4 => some .switch | 5 => some .stationIo
  | _ => none

def ZoneKind.code : ZoneKind → Byte
  | .station => 0 | .lift => 1 | .launch => 2 | .block => 3 | .storage => 4

def ZoneKind.ofCode (b : Byte) : Option ZoneKind :=
  match b.toNat with
  | 0 => some .station | 1 => some .lift | 2 => some .launch | 3 => some .block | 4 => some .storage
  | _ => none

def BranchRule.code : BranchRule → Byte
  | .fixedA => 0 | .alternate => 1 | .firstFree => 2 | .divert => 3

def BranchRule.ofCode (b : Byte) : Option BranchRule :=
  match b.toNat with
  | 0 => some .fixedA | 1 => some .alternate | 2 => some .firstFree | 3 => some .divert
  | _ => none

def Branch.code : Branch → Byte
  | .a => 0 | .b => 1

def Branch.ofCode (b : Byte) : Option Branch :=
  match b.toNat with
  | 0 => some .a | 1 => some .b | _ => none

/-- Commanded position; UNKNOWN 2. -/
def positionCode : Option Branch → Byte
  | none => 2 | some p => p.code

def UnlistedPolicy.code : UnlistedPolicy → Byte
  | .pass => 0 | .drop => 1

def UnlistedPolicy.ofCode (b : Byte) : Option UnlistedPolicy :=
  match b.toNat with
  | 0 => some .pass | 1 => some .drop | _ => none

def ZoneState.code : ZoneState → Byte
  | .unarmed => 0 | .free => 1 | .reserved => 2 | .moving => 3 | .held => 4 | .releasing => 5 | .fault => 6
  | .outOfService => 7

def TrapState.code : TrapState → Byte
  | .none => 0 | .pending => 1 | .done => 2 | .expired => 3

def FaultReason.code : FaultReason → Byte
  | .unexpectedEntry => 1 | .overlapExceeded => 2 | .unexpectedPresence => 3 | .lateArrival => 4 | .lost => 5
  | .clearBeforeEntry => 6 | .stuck => 7 | .edgeLoss => 8

/-- Fault reason; absent 0. -/
def reasonCode : Option FaultReason → Byte
  | none => 0 | some r => r.code

def TrainState.code : TrainState → Byte
  | .absent => 0 | .present => 1 | .lost => 2

def Origin.code : Origin → Byte
  | .autoEntry => 0 | .level => 1

def Phase.code : Phase → Byte
  | .set => 0 | .committed => 1

def Permit.code : Permit → Byte
  | .hold => 0 | .opened => 1

/-- Hold value; absent FFh. -/
def holdCode : Option HoldValue → Byte
  | none => 0xFF | some .hold => 0 | some .release => 1

def SupState.code : SupState → Byte
  | .unsupervised => 0 | .settled => 1 | .awaiting => 2 | .deviating => 3 | .faulted => 4

def Mode.code : Mode → Byte
  | .config => 0 | .stopped => 1 | .runAuto => 2 | .runManual => 3 | .maint => 4

def Mode.ofCode (b : Byte) : Option Mode :=
  match b.toNat with
  | 0 => some .config | 1 => some .stopped | 2 => some .runAuto | 3 => some .runManual | 4 => some .maint
  | _ => none

def Cause.number : Cause → Nat
  | .tracking => 0 | .overspeed => 1 | .device => 2 | .switch => 3 | .silence => 4 | .fieldLink => 5 | .time => 6
  | .estop => 7 | .supply => 8 | .stopRequest => 9 | .key => 10

/-- First cause; absent FFh. -/
def causeCode : Option Cause → Byte
  | none => 0xFF | some c => BitVec.ofNat 8 c.number

def Condition.number : Condition → Nat
  | .estopActive => 0 | .controllerSilent => 1 | .fieldLinkDown => 2 | .supplyWarning => 3 | .deviceLatch => 4
  | .maintKey => 5

def ResetCause.code : ResetCause → Byte
  | .powerOn => 0 | .supplyLow => 1 | .resetLine => 2 | .resetRequest => 3

def Result.code : Result → Byte
  | .success => 0x00 | .unknownRequest => 0x01 | .badMode => 0x02 | .badValue => 0x03 | .tainted => 0x04
  | .notSynchronized => 0x05 | .validationFailed => 0x06 | .notSettled => 0x07 | .faultPresent => 0x08
  | .conditionPresent => 0x09 | .noKey => 0x0A | .overrideLocked => 0x0B | .notPreceded => 0x0C | .staleEpoch => 0x0D
  | .badState => 0x0E | .sensorDisagrees => 0x0F

def RouteFailure.code : RouteFailure → Byte
  | .switchTimeout => 1 | .switchLocks => 2 | .claimLost => 3 | .withdrawn => 4 | .cancelled => 5

def SwitchFailure.code : SwitchFailure → Byte
  | .timeout => 1 | .bothLocks => 2 | .lockLost => 3

def DeviceFailure.code : DeviceFailure → Byte
  | .noOpen => 1 | .noClose => 2 | .uncommanded => 3 | .bothFeedback => 4

def BatchSize.toNat : BatchSize → Nat
  | .off => 0 | .one => 1 | .two => 2 | .four => 4

def BatchSize.ofCode (b : Byte) : Option BatchSize :=
  match b.toNat with
  | 0 => some .off | 1 => some .one | 2 => some .two | 4 => some .four | _ => none

/-- A set of enumerated members: bit n is set when the member with code n is in the set (11.1). -/
def setBits (w : Nat) (members : List Nat) : BitVec w :=
  members.foldl (fun v n => v ||| BitVec.ofNat w (2 ^ n)) 0

/-- The class mask as a set; FAULT is always a member (R177). -/
def EventMask.code (m : EventMask) : Byte :=
  setBits 8 ((if m.tracking then [0] else []) ++ (if m.dispatch then [1] else []) ++ [2] ++ (if m.health then [3] else []))

/-- The class mask a set names; bits with no member are ignored and FAULT is added (R177, R189). -/
def EventMask.ofCode (b : Byte) : EventMask where
  tracking := b.getLsbD 0
  dispatch := b.getLsbD 1
  health := b.getLsbD 3

/-! ## Field encodings (11.1) -/

/-- An optional ring time or tick count: a presence byte, then 4 bytes. -/
def optTimeBytes : Option (BitVec 32) → List Byte
  | none => [0, 0, 0, 0, 0]
  | some t => 1 :: be32 t

/-- A speed; absent FFFFh. -/
def speedBytes : Option (BitVec 16) → List Byte
  | none => be16 0xFFFF
  | some v => be16 v

/-- A sensor reference: node byte, then channel byte. -/
def sensorBytes (r : SensorRef) : List Byte := [nodeByte r.node, finByte r.ch]

/-! ## Event records (11.5) -/

/-- The class of a kind of record (9.8). -/
def EventBody.cls : EventBody → EventClass
  | .zoneEntered _ | .trainHeld _ | .trainReleased _ | .zoneCleared | .earlyArrival _ | .underspeed _ | .trapExpired
  | .lateStop => .tracking
  | .routeSet _ | .routeFailed _ | .dispatched _ | .dispatchRefused _ => .dispatch
  | .trackingFault _ | .overspeed _ | .deviceFault _ | .switchFault _ _ | .holdAll _ _ _ | .modeChanged _ _
  | .linkFault _ | .silence _ => .fault
  | .healthSlow _ | .healthStray _ | .healthEdgeLoss _ | .serviceDue _ => .health

/-- The kind code of a record (11.5). -/
def EventBody.code : EventBody → Nat
  | .zoneEntered _ => 1 | .trainHeld _ => 2 | .trainReleased _ => 3 | .zoneCleared => 4 | .earlyArrival _ => 5
  | .underspeed _ => 6 | .trapExpired => 7 | .lateStop => 8 | .routeSet _ => 9 | .routeFailed _ => 10
  | .dispatched _ => 11 | .dispatchRefused _ => 12 | .trackingFault _ => 13 | .overspeed _ => 14 | .deviceFault _ => 15
  | .switchFault _ _ => 16 | .holdAll _ _ _ => 17 | .modeChanged _ _ => 18 | .linkFault _ => 19 | .silence _ => 20
  | .healthSlow _ | .healthStray _ | .healthEdgeLoss _ => 21 | .serviceDue _ => 22

/-- A number across the three value bytes. -/
def numberValue (n : Nat) : List Byte := be24 (BitVec.ofNat 24 n)

/-- A lap count in a value field: above 16,777,215 it is sent as 16,777,215 (R190). -/
def lapValue (laps : BitVec 32) : List Byte := numberValue (min laps.toNat 16777215)

/-- The elapsed time of a SILENCE or LINK_FAULT record (R190). -/
def sinceValue (time : RingTime) : Option RingTime → List Byte
  | none => numberValue 16777215
  | some t => numberValue (min (elapsed t time) 16777214)

/-- The three value bytes of a record (11.5, R190). -/
def EventRecord.value (r : EventRecord) : List Byte :=
  match r.body with
  | .zoneEntered z => [finByte z, 0, 0]
  | .trainHeld v => numberValue ((v.map BitVec.toNat).getD 0)
  | .trainReleased p => numberValue (if p then 1 else 0)
  | .zoneCleared => [0, 0, 0]
  | .earlyArrival ms => numberValue ms
  | .underspeed v => numberValue v.toNat
  | .trapExpired => [0, 0, 0]
  | .lateStop => [0, 0, 0]
  | .routeSet br => [br.code, 0, 0]
  | .routeFailed x => [x.code, 0, 0]
  | .dispatched n => lapValue n
  | .dispatchRefused (.notReady i) => [1, BitVec.ofNat 8 i, 0]
  | .dispatchRefused .gap => [2, 0xFF, 0]
  | .dispatchRefused (.readyLost i) => [3, BitVec.ofNat 8 i, 0]
  | .trackingFault x => [x.code, 0, 0]
  | .overspeed v => numberValue v.toNat
  | .deviceFault x => [x.code, 0, 0]
  | .switchFault x n => [x.code, nodeByte n, 0]
  | .holdAll c l e => [causeCode (some c), flagByte l, (e.map finByte).getD 0xFF]
  | .modeChanged m m' => [m.code, m'.code, 0]
  | .linkFault t => sinceValue r.time t
  | .silence t => sinceValue r.time t
  | .healthSlow n => 1 :: be16 n
  | .healthStray n => [2, nodeByte n, 0]
  | .healthEdgeLoss n => [3, nodeByte n, 0]
  | .serviceDue n => lapValue n

/-- The first two bytes of a record: kind in bits 15 to 11, zone in bits 10 to 5 (63 absent), train in bits 4 to 1
(0 absent), bit 0 reserved (11.5). -/
def EventRecord.head (r : EventRecord) : BitVec 16 :=
  BitVec.ofNat 16 (r.body.code * 2048 + (r.zone.elim 63 Fin.val) * 32 + (r.train.elim 0 (fun t => t.val + 1)) * 2)

/-- The 11 bytes of a record (11.5). -/
def EventRecord.bytes (r : EventRecord) : List Byte :=
  be16 r.head ++ be16 r.seq ++ be32 r.time ++ r.value

/-! ## Frames the part originates -/

/-- The source byte of a frame the part originates (R152, R153). -/
def partByte : Byte := 62

/-- The broadcast hold frame (R104, 11.2). -/
def broadcastHold : Frame :=
  { dest := 63, src := partByte, ftype := typeCommand, payload := [1, 0, 0] }

/-- The frame of a response (R164, 11.2). -/
def Response.frame (r : Response) : Frame :=
  { dest := 0, src := partByte, ftype := typeResponse, payload := r.tag :: r.code :: r.result.code :: r.data }

/-- An EVENT frame: the records left after it, then its records, oldest first (R178, 11.2). -/
def eventFrameOf (left : Nat) (rs : List EventRecord) : Frame :=
  { dest := 0, src := partByte, ftype := typeEvent
    payload := BitVec.ofNat 8 left :: rs.flatMap EventRecord.bytes }

/-- A LINK_FAULT frame (R160, 11.2). -/
def linkFaultOf (now : RingTime) (lastStart : Option RingTime) (count : BitVec 16) : Frame :=
  { dest := 0, src := partByte, ftype := typeLinkFault
    payload := flagByte lastStart.isSome :: (be32 now ++ be32 (lastStart.getD 0) ++ be16 count) }

end Sys2Proof.Machine
end

