-- ==== Sys2Proof/Machine/Tables.lean ====
section
/-! DEFINITION. The bodies of the table records (11.6): reading a body field by field with the checks of R3, R4, R5, R7,
R8, R9, R10 and R11, and writing a stored record back as bytes.  A reader answers the number of the first field that
fails.  `valid` says in one place what a stored record satisfies beyond its types. -/

namespace Sys2Proof.Machine

/-- The value of a field, or the field's number when it has none. -/
def field {α : Type} (n : Nat) (v : Option α) : Except Nat α :=
  match v with
  | some a => .ok a
  | none => .error n

/-- A check of a field. -/
def require (n : Nat) (ok : Bool) : Except Nat Unit :=
  if ok then .ok () else .error n

/-- `lo ≤ v ≤ hi`. -/
def within (v lo hi : Nat) : Bool := decide (lo ≤ v) && decide (v ≤ hi)

/-- A mandatory sensor reference: node 1 to 61, channel 0 to 15. -/
def sensorOf (nb cb : Byte) : Option SensorRef :=
  match nodeOf nb, channelOf cb with
  | some n, some c => some { node := n, ch := c }
  | _, _ => none

/-- An optional sensor reference: node 0 is absent, and its channel byte is not read (R5). -/
def optSensorOf (nb cb : Byte) : Option (Option SensorRef) :=
  if addrOf nb = 0 then some none else (sensorOf nb cb).map some

/-- An optional zone: FFh is absent. -/
def optZoneOf (b : Byte) : Option (Option ZoneId) :=
  if b = 0xFF then some none else (zoneOf b).map some

/-! ## Zone records (R4, R5) -/

/-- Whether a zone of this kind may have ready inputs (R4). -/
def ZoneKind.mayHaveReady : ZoneKind → Bool
  | .station | .launch => true
  | .lift | .block | .storage => false

/-- Ready inputs `k` of a zone record, fields 24 onward. -/
def parseReady (b : List Byte) : Nat → Nat → Except Nat (List SensorRef)
  | 0, _ => .ok []
  | k + 1, i => do
    let r ← field (24 + i) (sensorOf (byteAt b (34 + 2 * i)) (byteAt b (35 + 2 * i)))
    let rs ← parseReady b k (i + 1)
    .ok (r :: rs)

/-- The body of zone `z` (R5), its fields checked in record order. -/
def parseZone (z : ZoneId) (b : List Byte) : Except Nat ZoneRec := do
  let kind ← field 1 (ZoneKind.ofCode (byteAt b 0))
  let holdNode ← field 4 (nodeOf (byteAt b 2))
  let holdCh ← field 5 (channelOf (byteAt b 3))
  let openFb ← field 6 (channelOf (byteAt b 4))
  let closedFb ← field 7 (channelOf (byteAt b 5))
  require 7 (closedFb != openFb)
  let trapA ← field 8 (sensorOf (byteAt b 6) (byteAt b 7))
  let trapB ← field 9 (optSensorOf (byteAt b 8) (byteAt b 9))
  let trapGap := word16At b 10
  require 10 (!trapB.isSome || within trapGap.toNat 50 4000)
  let stop ← field 11 (sensorOf (byteAt b 12) (byteAt b 13))
  let clear ← field 12 (sensorOf (byteAt b 14) (byteAt b 15))
  let vMin := word16At b 16
  let vRef := word16At b 18
  let vMax := word16At b 20
  require 13 (within vMin.toNat 0 65000)
  require 14 (within vRef.toNat vMin.toNat 65000)
  require 15 (within vMax.toNat vRef.toNat 65000)
  let tMin := word16At b 22
  let tMax := word16At b 24
  let tClear := word16At b 26
  let fbLimit := word16At b 28
  require 16 (within tMin.toNat 1 60000)
  require 17 (within tMax.toNat 1 60000 && decide (tMin.toNat ≤ tMax.toNat))
  require 18 (within tClear.toNat 100 60000)
  require 19 (within fbLimit.toNat 50 5000)
  let succA ← field 20 (zoneOf (byteAt b 30))
  require 20 (succA != z)
  let succB ← field 21 (optZoneOf (byteAt b 31))
  require 21 (succB != some z && succB != some succA)
  let rule ← field 22 (BranchRule.ofCode (byteAt b 32))
  let count := (byteAt b 33).toNat
  require 23 (decide (count ≤ 4) && (kind.mayHaveReady || count == 0))
  let ready ← parseReady b count 0
  .ok
    { kind := kind, inService := (byteAt b 1).getLsbD 0, passThrough := (byteAt b 1).getLsbD 1
      holdNode := holdNode, holdCh := holdCh, openFb := openFb, closedFb := closedFb
      trapA := trapA, trapB := trapB, trapGap := trapGap, stop := stop, clear := clear
      vMin := vMin, vRef := vRef, vMax := vMax, tMin := tMin, tMax := tMax, tClear := tClear, fbLimit := fbLimit
      succA := succA, succB := succB, rule := rule, ready := ready }

/-- What every stored zone record satisfies beside the ranges its types give (R4, R5). -/
def ZoneRec.valid (z : ZoneId) (r : ZoneRec) : Bool :=
  r.closedFb != r.openFb && (!r.trapB.isSome || within r.trapGap.toNat 50 4000) &&
  decide (r.vMin.toNat ≤ r.vRef.toNat) && decide (r.vRef.toNat ≤ r.vMax.toNat) && decide (r.vMax.toNat ≤ 65000) &&
  within r.tMin.toNat 1 60000 && within r.tMax.toNat r.tMin.toNat 60000 && within r.tClear.toNat 100 60000 &&
  within r.fbLimit.toNat 50 5000 && r.succA != z && r.succB != some z && r.succB != some r.succA &&
  decide (r.ready.length ≤ 4) && (r.kind.mayHaveReady || r.ready.isEmpty)

/-- The two flags of a zone record in bits 0 and 1 (11.6). -/
def zoneFlags (inService passThrough : Bool) : Byte :=
  (if inService then 1 else 0) ||| (if passThrough then 2 else 0)

/-- An optional sensor reference as stored; absent is two bytes of 0 (R187). -/
def optSensorBytes : Option SensorRef → List Byte
  | none => [0, 0]
  | some r => sensorBytes r

/-- `bs` filled up with bytes of 0 to `n` bytes: what a record does not store reads back as 0 (R187). -/
def padTo (n : Nat) (bs : List Byte) : List Byte := bs ++ List.replicate (n - bs.length) 0

/-- The 42 bytes of a zone record as stored (11.6). -/
def ZoneRec.body (r : ZoneRec) : List Byte :=
  [r.kind.code, zoneFlags r.inService r.passThrough, nodeByte r.holdNode, finByte r.holdCh, finByte r.openFb,
    finByte r.closedFb] ++ sensorBytes r.trapA ++ optSensorBytes r.trapB ++ be16 r.trapGap ++ sensorBytes r.stop ++
  sensorBytes r.clear ++ be16 r.vMin ++ be16 r.vRef ++ be16 r.vMax ++ be16 r.tMin ++ be16 r.tMax ++ be16 r.tClear ++
  be16 r.fbLimit ++ [finByte r.succA, zoneByte r.succB, r.rule.code, BitVec.ofNat 8 r.ready.length] ++
  padTo 8 (r.ready.flatMap sensorBytes)

/-! ## Route records (R7) -/

/-- Claim kind, target and position from three bytes, whose first field number is `n`. -/
def parseClaim (n : Nat) (k t p : Byte) : Except Nat Claim :=
  match k.toNat with
  | 1 => do .ok (.reserve (← field (n + 1) (zoneOf t)))
  | 2 => do .ok (.flank (← field (n + 1) (zoneOf t)))
  | 3 => do
    let node ← field (n + 1) (nodeOf t)
    let pos ← field (n + 2) (Branch.ofCode p)
    .ok (.switch node pos)
  | _ => .error n

/-- The first `k` claims of a route body from claim `i` on. -/
def parseClaims (b : List Byte) : Nat → Nat → Except Nat (List Claim)
  | 0, _ => .ok []
  | k + 1, i => do
    let c ← parseClaim (4 + 3 * i) (byteAt b (3 + 3 * i)) (byteAt b (4 + 3 * i)) (byteAt b (5 + 3 * i))
    let cs ← parseClaims b k (i + 1)
    .ok (c :: cs)

/-- The body of a route record (R7). -/
def parseRoute (b : List Byte) : Except Nat RouteRec := do
  let zone ← field 1 (zoneOf (byteAt b 0))
  let branch ← field 2 (Branch.ofCode (byteAt b 1))
  let count := (byteAt b 2).toNat
  require 3 (decide (count ≤ 8))
  let claims ← parseClaims b count 0
  .ok { zone := zone, branch := branch, claims := claims }

/-- What every stored route record satisfies beside its types (R7). -/
def RouteRec.valid (r : RouteRec) : Bool := decide (r.claims.length ≤ 8)

/-- A claim as stored; the position of a RESERVE or FLANK claim is 0 (R7, R187). -/
def Claim.bytes : Claim → List Byte
  | .reserve z => [1, finByte z, 0]
  | .flank z => [2, finByte z, 0]
  | .switch n p => [3, nodeByte n, p.code]

/-- The 27 bytes of a route record as stored (11.6). -/
def RouteRec.body (r : RouteRec) : List Byte :=
  [finByte r.zone, r.branch.code, BitVec.ofNat 8 r.claims.length] ++ padTo 24 (r.claims.flatMap Claim.bytes)

/-! ## Switch records (R8) -/

/-- The body of a switch record (R8). -/
def parseSwitch (b : List Byte) : Except Nat SwitchRec := do
  let node ← field 1 (nodeOf (byteAt b 0))
  let posCh ← field 2 (channelOf (byteAt b 1))
  let lockA ← field 3 (channelOf (byteAt b 2))
  let lockB ← field 4 (channelOf (byteAt b 3))
  require 4 (lockB != lockA)
  .ok { node := node, posCh := posCh, lockA := lockA, lockB := lockB, inService := (byteAt b 4).getLsbD 0 }

/-- What every stored switch record satisfies beside its types (R8). -/
def SwitchRec.valid (r : SwitchRec) : Bool := r.lockB != r.lockA

/-- The 5 bytes of a switch record as stored (11.6). -/
def SwitchRec.body (r : SwitchRec) : List Byte :=
  [nodeByte r.node, finByte r.posCh, finByte r.lockA, finByte r.lockB, flagByte r.inService]

/-! ## Placement, e-stop and node map records (R3, R9, R10) -/

/-- The body of a placement entry (R9). -/
def parsePlacement (b : List Byte) : Except Nat Placement := do
  let train ← field 1 (trainOf (byteAt b 0))
  let zone ← field 2 (zoneOf (byteAt b 1))
  .ok { train := train, zone := zone }

/-- The 2 bytes of a placement entry (11.6). -/
def Placement.body (r : Placement) : List Byte := [trainByte (some r.train), finByte r.zone]

/-- The body of an e-stop entry (R10). -/
def parseEstop (b : List Byte) : Except Nat SensorRef :=
  field 1 (sensorOf (byteAt b 0) (byteAt b 1))

/-- The body of a node map record (R3). -/
def parseNode (b : List Byte) : Except Nat NodeClass :=
  field 1 (NodeClass.ofCode (byteAt b 0))

/-! ## Device parameters (R11) -/

/-- What every device parameter record satisfies (R11). -/
def Params.valid (r : Params) : Bool :=
  within r.cyclePeriod.toNat 1 100 && within r.silenceLimit.toNat 10 500 && within r.dispatchGap.toNat 0 600000 &&
  within r.switchLimit.toNat 100 30000 && within r.lapThreshold.toNat 0 1000000

/-- The body of the device parameter record (R11). -/
def parseParams (b : List Byte) : Except Nat Params := do
  let cyclePeriod := byteAt b 0
  require 1 (within cyclePeriod.toNat 1 100)
  let silenceLimit := word16At b 1
  require 2 (within silenceLimit.toNat 10 500)
  let unlisted ← field 3 (UnlistedPolicy.ofCode (byteAt b 3))
  let dispatchGap := word32At b 4
  require 4 (within dispatchGap.toNat 0 600000)
  let switchLimit := word16At b 8
  require 5 (within switchLimit.toNat 100 30000)
  let slowThreshold := word16At b 10
  let lapThreshold := word32At b 12
  require 7 (within lapThreshold.toNat 0 1000000)
  .ok
    { cyclePeriod := cyclePeriod, silenceLimit := silenceLimit, unlisted := unlisted, dispatchGap := dispatchGap
      switchLimit := switchLimit, slowThreshold := slowThreshold, lapThreshold := lapThreshold }

/-- The 16 bytes of the device parameter record (11.6). -/
def Params.body (r : Params) : List Byte :=
  [r.cyclePeriod] ++ be16 r.silenceLimit ++ [r.unlisted.code] ++ be32 r.dispatchGap ++ be16 r.switchLimit ++
  be16 r.slowThreshold ++ be32 r.lapThreshold

/-! ## Slots (R1, R2) -/

/-- A table slot, named by table code and index (1.1). -/
inductive Slot where
  | node (n : NodeId)
  | zone (z : ZoneId)
  | route (i : RouteId)
  | switch (i : SwitchId)
  | placement (i : EntryId)
  | estop (i : EntryId)
  | params
  deriving DecidableEq, Repr

/-- The index as a number below `n`. -/
def finOf (n : Nat) (b : Byte) : Option (Fin n) :=
  if h : b.toNat < n then some ⟨b.toNat, h⟩ else none

/-- The slot of a table code and index; absent when either lies outside its range (condition 3 of R2).  A node map index
is a number 1 to 61, not a node address byte. -/
def slotOf (table index : Byte) : Option Slot :=
  match table.toNat with
  | 1 => if h : 1 ≤ index.toNat ∧ index.toNat ≤ 61 then some (.node ⟨index.toNat - 1, by omega⟩) else none
  | 2 => (finOf 32 index).map .zone
  | 3 => (finOf 64 index).map .route
  | 4 => (finOf 16 index).map .switch
  | 5 => (finOf 8 index).map .placement
  | 6 => (finOf 8 index).map .estop
  | 7 => if index.toNat = 0 then some .params else none
  | _ => none

/-- The length of a slot's record body (11.6). -/
def Slot.bodyLength : Slot → Nat
  | .node _ => 1 | .zone _ => 42 | .route _ => 27 | .switch _ => 5 | .placement _ => 2 | .estop _ => 2 | .params => 16

/-- The slot made unloaded; the device parameters return to their defaults (condition 4 of R2). -/
def Store.unload (t : Store) : Slot → Store
  | .node n => { t with nodes := t.nodes.set n none }
  | .zone z => { t with zones := t.zones.set z none }
  | .route i => { t with routes := t.routes.set i none }
  | .switch i => { t with switches := t.switches.set i none }
  | .placement i => { t with placement := t.placement.set i none }
  | .estop i => { t with estops := t.estops.set i none }
  | .params => { t with params := .default }

/-- The record of a body written to its slot, or the number of the first field that fails (conditions 5 and 6 of R2). -/
def Store.load (t : Store) (slot : Slot) (b : List Byte) : Except Nat Store :=
  match slot with
  | .node n => do .ok { t with nodes := t.nodes.set n (some (← parseNode b)) }
  | .zone z => do .ok { t with zones := t.zones.set z (some (← parseZone z b)) }
  | .route i => do .ok { t with routes := t.routes.set i (some (← parseRoute b)) }
  | .switch i => do .ok { t with switches := t.switches.set i (some (← parseSwitch b)) }
  | .placement i => do .ok { t with placement := t.placement.set i (some (← parsePlacement b)) }
  | .estop i => do .ok { t with estops := t.estops.set i (some (← parseEstop b)) }
  | .params => do .ok { t with params := ← parseParams b }

/-- The stored body of a slot; absent when the slot is unloaded. -/
def Store.body (t : Store) : Slot → Option (List Byte)
  | .node n => t.nodes[n].map (fun c => [c.code])
  | .zone z => t.zones[z].map ZoneRec.body
  | .route i => t.routes[i].map RouteRec.body
  | .switch i => t.switches[i].map SwitchRec.body
  | .placement i => t.placement[i].map Placement.body
  | .estop i => t.estops[i].map sensorBytes
  | .params => some t.params.body

/-- Every slot in table code order and, within a table, in ascending index order, with its code and index bytes (R15). -/
def allSlots : List (Byte × Byte × Slot) :=
  allNodes.map (fun n => (1, nodeByte n, .node n)) ++ allZones.map (fun z => (2, finByte z, .zone z)) ++
  allRoutes.map (fun i => (3, finByte i, .route i)) ++ allSwitches.map (fun i => (4, finByte i, .switch i)) ++
  allEntries.map (fun i => (5, finByte i, .placement i)) ++ allEntries.map (fun i => (6, finByte i, .estop i)) ++
  [(7, 0, .params)]

/-- The bytes the table signature runs over (R15). -/
def Store.signatureBytes (t : Store) : List Byte :=
  allSlots.flatMap (fun s =>
    match t.body s.2.2 with
    | none => []
    | some b => s.1 :: s.2.1 :: b)

/-- The table signature (R15). -/
def Store.signature (t : Store) : BitVec 16 := crc16 t.signatureBytes

end Sys2Proof.Machine
end

