-- ==== Sys2Proof/Machine/Ops.lean ====
section
/-! DEFINITION. The named operations over the part: reading and changing the record of a zone, a train, a switch, a
device, a node; reading an input level; queuing an event record (R176); the counts of Counters and Health; and the
working record `Ev` of one event, which carries the part and what the event still has to do before it ends. -/

namespace Sys2Proof.Machine

/-! ## Reading the part -/

/-- The dynamic record of a zone. -/
def Part.zone (p : Part) (z : ZoneId) : ZoneDyn := p.trk.zones[z]

/-- The record of a train. -/
def Part.train (p : Part) (t : TrainId) : TrainRec := p.trk.trains[t]

/-- The record of a hold device. -/
def Part.device (p : Part) (z : ZoneId) : DeviceRec := p.devices[z]

/-- The dynamic record of a switch. -/
def Part.switch (p : Part) (i : SwitchId) : SwitchDyn := p.rs.switches[i]

/-- The static record of a zone; absent when the zone is unloaded. -/
def Part.zoneRec (p : Part) (z : ZoneId) : Option ZoneRec := p.store.zones[z]

/-- The current ring time. -/
def Part.now (p : Part) : RingTime := p.ring.ringTime

/-- The operating mode. -/
def Part.mode (p : Part) : Mode := p.mc.mode

/-- The cycle period P in ticks (R11). -/
def Part.cycleTicks (p : Part) : Nat := msTicks p.store.params.cyclePeriod.toNat

/-- The latest level of an input; an unknown level reads as inactive (R45). -/
def Part.level (p : Part) (r : SensorRef) : Bool :=
  match p.cls.levels[r.node] with
  | none => false
  | some v => v.getLsbD r.ch.val

/-- The OPEN_FB level of a zone's hold device. -/
def Part.openFb (p : Part) (r : ZoneRec) : Bool := p.level { node := r.holdNode, ch := r.openFb }

/-- The CLOSED_FB level of a zone's hold device. -/
def Part.closedFb (p : Part) (r : ZoneRec) : Bool := p.level { node := r.holdNode, ch := r.closedFb }

/-- The class of a node; absent when it is unlisted (R3). -/
def Part.nodeClass (p : Part) (n : NodeId) : Option NodeClass := p.store.nodes[n]

/-- The switch of a node: the loaded record of lowest index on that node (check 9 makes it the only one). -/
def Part.switchOf (p : Part) (n : NodeId) : Option SwitchId :=
  allSwitches.find? (fun i =>
    match p.store.switches[i] with
    | some r => r.node == n
    | none => false)

/-- The mode is one in which a permit may open (R125). -/
def Mode.mayRelease : Mode → Bool
  | .runAuto | .runManual | .maint => true
  | .config | .stopped => false

/-- The mode is RUN_AUTO or RUN_MANUAL (R129). -/
def Mode.running : Mode → Bool
  | .runAuto | .runManual => true
  | .config | .stopped | .maint => false

/-- A zone that a reservation may take: FREE with flank count 0 (R70, R84). -/
def Part.reservable (p : Part) (z : ZoneId) : Bool :=
  (p.zone z).state == .free && (p.zone z).flank == 0

/-- The active routes out of a zone (R80). -/
def Part.routesOut (p : Part) (z : ZoneId) : List ActiveRoute := p.rs.routes.filter (fun r => r.zone == z)

/-- An active route out of `z` for train `x` exists. -/
def Part.hasRoute (p : Part) (z : ZoneId) (x : TrainId) : Bool :=
  p.rs.routes.any (fun r => r.zone == z && r.train == x)

/-- An active route out of `z` for train `x` exists in phase SET. -/
def Part.hasSetRoute (p : Part) (z : ZoneId) (x : TrainId) : Bool :=
  p.rs.routes.any (fun r => r.zone == z && r.train == x && r.phase == .set)

/-- A request for the zone is queued (R64). -/
def Part.hasRequest (p : Part) (z : ZoneId) : Bool := p.rs.requests.any (fun q => q.zone == z)

/-- The request for the zone is being set. -/
def Part.isSetting (p : Part) (z : ZoneId) : Bool :=
  match p.rs.setting with
  | some s => s.zone == z
  | none => false

/-- A claim waits on the switch of node `n`: the switch timer runs and the claim last pushed is on that node (R75). -/
def Part.waitsOn (p : Part) (n : NodeId) : Bool :=
  match p.rs.setting, p.rs.timer, p.rs.stack with
  | some _, some _, .switch m _ :: _ => m == n
  | _, _, _ => false

/-- The successor of a zone by a branch (R13). -/
def ZoneRec.succ (r : ZoneRec) : Branch → Option ZoneId
  | .a => some r.succA
  | .b => r.succB

/-- The route record of a zone and branch (R7). -/
def Part.routeRec (p : Part) (z : ZoneId) (br : Branch) : Option RouteRec :=
  p.store.routes.toList.findSome? (fun r =>
    match r with
    | some r => if r.zone == z && r.branch == br then some r else none
    | none => none)

/-! ## Changing the part -/

/-- Change the dynamic record of a zone. -/
def Part.modZone (p : Part) (z : ZoneId) (f : ZoneDyn → ZoneDyn) : Part :=
  { p with trk := { p.trk with zones := p.trk.zones.set z (f p.trk.zones[z]) } }

/-- Change the record of a train. -/
def Part.modTrain (p : Part) (t : TrainId) (f : TrainRec → TrainRec) : Part :=
  { p with trk := { p.trk with trains := p.trk.trains.set t (f p.trk.trains[t]) } }

/-- Change the record of a hold device. -/
def Part.modDevice (p : Part) (z : ZoneId) (f : DeviceRec → DeviceRec) : Part :=
  { p with devices := p.devices.set z (f p.devices[z]) }

/-- Change the dynamic record of a switch. -/
def Part.modSwitch (p : Part) (i : SwitchId) (f : SwitchDyn → SwitchDyn) : Part :=
  { p with rs := { p.rs with switches := p.rs.switches.set i (f p.rs.switches[i]) } }

/-- Change the health counts of a device. -/
def Part.modDeviceHealth (p : Part) (z : ZoneId) (f : DeviceHealth → DeviceHealth) : Part :=
  { p with cnt := { p.cnt with devices := p.cnt.devices.set z (f p.cnt.devices[z]) } }

/-- Change the health counts of a node. -/
def Part.modNodeHealth (p : Part) (n : NodeId) (f : NodeHealth → NodeHealth) : Part :=
  { p with cnt := { p.cnt with nodes := p.cnt.nodes.set n (f p.cnt.nodes[n]) } }

/-- Change the Ring Path Unit. -/
def Part.modRing (p : Part) (f : RingPath → RingPath) : Part := { p with ring := f p.ring }

/-- Change the Route Setter. -/
def Part.modSetter (p : Part) (f : RouteSetter → RouteSetter) : Part := { p with rs := f p.rs }

/-- Change the Mode Controller. -/
def Part.modMode (p : Part) (f : ModeCtl → ModeCtl) : Part := { p with mc := f p.mc }

/-- Change the Management Unit. -/
def Part.modMgmt (p : Part) (f : Mgmt → Mgmt) : Part := { p with mgmt := f p.mgmt }

/-- Change the counters. -/
def Part.modCounters (p : Part) (f : Counters → Counters) : Part := { p with cnt := f p.cnt }

/-- A 16-bit saturating count rises by 1 (R181, R182). -/
def sat16 (v : BitVec 16) : BitVec 16 := if v = 0xFFFF then v else v + 1

/-- A 32-bit saturating count rises by 1 (R116). -/
def sat32 (v : BitVec 32) : BitVec 32 := if v = 0xFFFFFFFF then v else v + 1

/-! ## The event queue (R176) -/

/-- A class is enabled by the mask; FAULT always is (R177). -/
def EventMask.enables (m : EventMask) : EventClass → Bool
  | .tracking => m.tracking
  | .dispatch => m.dispatch
  | .fault => true
  | .health => m.health

/-- A record created by a block: queued, discarded at a full queue, or not queued (R176). -/
def Mgmt.queueEvent (m : Mgmt) (time : RingTime) (zone : Option ZoneId) (train : Option TrainId) (body : EventBody) :
    Mgmt :=
  if m.reporting.batch = .off || !m.reporting.mask.enables body.cls then m
  else if m.events.length < Config.eventCapacity then
    { m with events := m.events ++ [{ seq := m.seq, time := time, zone := zone, train := train, body := body }]
             seq := m.seq + 1 }
  else { m with evqOverflow := true, seq := m.seq + 1 }

/-- Queue a record in the part. -/
def Part.queueEvent (p : Part) (time : RingTime) (zone : Option ZoneId) (train : Option TrainId) (body : EventBody) :
    Part :=
  p.modMgmt (fun m => m.queueEvent time zone train body)

/-! ## The working record of an event -/

/-- A hold-all cause that a block has raised in this event, with the e-stop entry of an ESTOP (R131, R133). -/
structure Raise where
  cause : Cause
  entry : Option EntryId
  deriving DecidableEq, Repr

/-- A dispatch that the Tracking Unit has handed to the Dispatch Unit in this event (R116). -/
structure DispatchNote where
  zone : ZoneId
  train : TrainId
  time : RingTime
  deriving DecidableEq, Repr

/-- A HEALTH_THRESHOLD or SERVICE_DUE record, which follows the other records of this event (R183).  Its time is absent
for the ring time of the event, which HEALTH_THRESHOLD bears, and the dispatch time for SERVICE_DUE (R123). -/
structure LateRecord where
  time : Option RingTime
  zone : Option ZoneId
  train : Option TrainId
  body : EventBody
  deriving DecidableEq, Repr

/-- One event in progress: the part as the event has left it so far, whether the Route Setter has been woken (R68), the
causes raised and not yet in effect (R131), the dispatches not yet recorded (R26, R116) and the health records that
stand after the others (R183).  Only the part outlives the event. -/
structure Ev where
  p : Part
  wake : Bool
  raised : List Raise
  dispatches : List DispatchNote
  late : List LateRecord
  deriving DecidableEq, Repr

/-- An event begins. -/
def Ev.start (p : Part) : Ev := { p := p, wake := false, raised := [], dispatches := [], late := [] }

/-- Change the part of an event. -/
def Ev.mod (e : Ev) (f : Part → Part) : Ev := { e with p := f e.p }

/-- Wake the Route Setter (R68). -/
def Ev.woken (e : Ev) : Ev := { e with wake := true }

/-- Raise a hold-all cause (R131). -/
def Ev.raise (e : Ev) (c : Cause) (entry : Option EntryId := none) : Ev :=
  { e with raised := e.raised ++ [{ cause := c, entry := entry }] }

/-- Queue an event record. -/
def Ev.record (e : Ev) (time : RingTime) (zone : Option ZoneId) (train : Option TrainId) (body : EventBody) : Ev :=
  e.mod (fun p => p.queueEvent time zone train body)

/-- Set a zone's state and occupant.  The epoch increments when either changes (R22), and a change of state wakes the
Route Setter (R68). -/
def Ev.setZone (e : Ev) (z : ZoneId) (st : ZoneState) (occ : Option TrainId) : Ev :=
  let d := e.p.zone z
  let e' := e.mod (fun p => p.modZone z (fun d =>
    { d with state := st, occupant := occ
             epoch := if d.state = st ∧ d.occupant = occ then d.epoch else d.epoch + 1 }))
  if d.state = st then e' else e'.woken

/-- Change the other fields of a zone; no epoch changes (R22). -/
def Ev.modZone (e : Ev) (z : ZoneId) (f : ZoneDyn → ZoneDyn) : Ev := e.mod (fun p => p.modZone z f)

/-- Change a train record. -/
def Ev.modTrain (e : Ev) (t : TrainId) (f : TrainRec → TrainRec) : Ev := e.mod (fun p => p.modTrain t f)

/-- Set a train's divert mark; a change of it wakes the Route Setter (R118). -/
def Ev.setDivert (e : Ev) (t : TrainId) (v : Bool) : Ev :=
  let e' := e.modTrain t (fun r => { r with divert := v })
  if (e.p.train t).divert = v then e' else e'.woken

/-- Set the permit of a zone's hold device (R89, R90). -/
def Ev.setPermit (e : Ev) (z : ZoneId) (v : Permit) : Ev :=
  e.mod (fun p => p.modDevice z (fun d => { d with permit := v }))

/-! ## Health counts with a threshold (R183) -/

/-- A node's count reached its threshold: the flag, HEALTH_ALERT and a HEALTH_THRESHOLD record. -/
def Ev.testNode (e : Ev) (n : NodeId) (count : BitVec 16) (body : EventBody) : Ev :=
  if count = 0xFFFF && !e.p.cnt.nodes[n].alerted then
    { e.mod (fun p => (p.modNodeHealth n (fun h => { h with alerted := true })).modMgmt
        (fun m => { m with healthAlert := true })) with
      late := e.late ++ [{ time := none, zone := none, train := none, body := body }] }
  else e

/-- A stray edge reported by node `n` (R29, R181); a count at 65,535 no longer rises. -/
def Ev.stray (e : Ev) (n : NodeId) : Ev :=
  let v := e.p.cnt.nodes[n].stray
  if v = 0xFFFF then e
  else (e.mod (fun p => p.modNodeHealth n (fun h => { h with stray := sat16 h.stray }))).testNode n (sat16 v) (.healthStray n)

/-- A check that finds lost edges at node `n` (R45, R181); a count at 65,535 no longer rises. -/
def Ev.edgesLost (e : Ev) (n : NodeId) : Ev :=
  let v := e.p.cnt.nodes[n].edgeLoss
  if v = 0xFFFF then e
  else (e.mod (fun p => p.modNodeHealth n (fun h => { h with edgeLoss := sat16 h.edgeLoss }))).testNode n (sat16 v)
    (.healthEdgeLoss n)

/-- A slow match of the device of zone `z` (R100, R182, R183); a count at 65,535 no longer rises. -/
def Ev.slowMatch (e : Ev) (z : ZoneId) : Ev :=
  let v := e.p.cnt.devices[z].slow
  let limit := e.p.store.params.slowThreshold
  if v = 0xFFFF then e
  else
    let e' := e.mod (fun p => p.modDeviceHealth z (fun h => { h with slow := sat16 h.slow }))
    if decide (0 < limit.toNat) && decide (limit.toNat ≤ (sat16 v).toNat) && !e.p.cnt.devices[z].alerted then
      { e'.mod (fun p => (p.modDeviceHealth z (fun h => { h with alerted := true })).modMgmt
          (fun m => { m with healthAlert := true })) with
        late := e.late ++ [{ time := none, zone := some z, train := none, body := .healthSlow (sat16 v) }] }
    else e'

/-- The HEALTH_THRESHOLD and SERVICE_DUE records of an event, after its other records and in the order in which their
counts rose (R183; the order among them is a DESIGN CHOICE, assumption log 20). -/
def Ev.queueLate (e : Ev) : Ev :=
  e.late.foldl (fun e r => e.record (r.time.getD e.p.now) r.zone r.train r.body) { e with late := [] }

end Sys2Proof.Machine
end

