-- ==== Sys2Proof/Machine/Claims.lean ====
section
/-! DEFINITION. Claims and their release: when a claim is claimable (R70), the RESERVE and its release (R39), holder and
flank counts (R85, R87), unwinding the claim stack (R77), and the release of active routes (R82, R83). -/

namespace Sys2Proof.Machine

/-! ## Claimable (R70) -/

/-- A SWITCH claim is claimable on this switch record (R70). -/
def SwitchDyn.claimable (d : SwitchDyn) (pos : Branch) : Bool :=
  d.inService && (d.holders == 0 ||
    (decide (d.holders < Config.maxHolders) && d.commanded == some pos))

/-- A claim is claimable now (R70). -/
def Part.claimable (p : Part) : Claim → Bool
  | .reserve r => p.reservable r
  | .flank f => (p.zone f).state == .free || decide (0 < (p.zone f).flank)
  | .switch n pos =>
    match p.switchOf n with
    | none => false
    | some i => (p.switch i).claimable pos

/-! ## The lock inputs of a switch (R74) -/

/-- What the two lock inputs show of a position. -/
inductive LockReading where
  | good | both | other
  deriving DecidableEq, Repr

/-- The lock inputs of a switch record, read for position `pos` in the latest levels (R74, R75). -/
def Part.lockReading (p : Part) (r : SwitchRec) (pos : Branch) : LockReading :=
  let la := p.level { node := r.node, ch := r.lockA }
  let lb := p.level { node := r.node, ch := r.lockB }
  let want := if pos = .a then la else lb
  let opposite := if pos = .a then lb else la
  if want && opposite then .both
  else if want then .good
  else .other

/-! ## Making claims -/

/-- Zone `r` becomes RESERVED for train `x`, and the reserved zone of `x` (R39, R73), also where that names a zone that has
faulted under an earlier route: the FAULT zone then keeps `x` as its occupant and is no zone of `x` (DESIGN CHOICE, assumption
log 25). -/
def Ev.reserve (e : Ev) (r : ZoneId) (x : TrainId) : Ev :=
  (e.setZone r .reserved (some x)).modTrain x (fun t => { t with reserved := some r })

/-- A zone's flank count rises by 1 (R73, R87). -/
def Ev.addFlank (e : Ev) (z : ZoneId) : Ev :=
  (e.modZone z (fun d => { d with flank := d.flank + 1 })).woken

/-- A switch takes a claim for `pos`: with holder count 0 it is commanded there, and the count rises by 1 (R74). -/
def Ev.addHolder (e : Ev) (i : SwitchId) (pos : Branch) : Ev :=
  (e.mod (fun p => p.modSwitch i (fun d =>
    { d with commanded := if d.holders = 0 then some pos else d.commanded
             holders := d.holders + 1 }))).woken

/-! ## Releasing claims -/

/-- The values of a FREE zone: what R40 and R140 return a zone to, its epoch, last branch and flank count apart. -/
def ZoneDyn.cleared (d : ZoneDyn) : ZoneDyn :=
  { d with entryTime := none, trap := .none, speed := none, deadline := none, remainder := none, pauseMark := false
           reason := none, trapExpiry := none, transitExpiry := none, releaseTimer := none }

/-- A RESERVE claim of `x` on `r` is released: a zone still RESERVED for `x` becomes FREE, and no other (R39). -/
def Ev.releaseReserve (e : Ev) (r : ZoneId) (x : TrainId) : Ev :=
  if (e.p.zone r).state = .reserved ∧ (e.p.zone r).occupant = some x then
    ((e.setZone r .free none).modZone r ZoneDyn.cleared).modTrain x (fun t => { t with reserved := none })
  else e

/-- A FLANK claim is released (R77, R87). -/
def Ev.dropFlank (e : Ev) (z : ZoneId) : Ev :=
  (e.modZone z (fun d => { d with flank := d.flank - 1 })).woken

/-- A SWITCH claim is released: the count falls by 1 and the position stays; at 0 the lock-loss mark clears (R77, R86). -/
def Ev.dropHolder (e : Ev) (n : NodeId) : Ev :=
  match e.p.switchOf n with
  | none => e
  | some i =>
    (e.mod (fun p => p.modSwitch i (fun d =>
      { d with holders := d.holders - 1, lockLost := d.lockLost && decide (1 < d.holders) }))).woken

/-- A claim of train `x` is released (R77). -/
def Ev.releaseClaim (x : TrainId) (e : Ev) : Claim → Ev
  | .reserve r => e.releaseReserve r x
  | .flank z => e.dropFlank z
  | .switch n _ => e.dropHolder n

/-- Unwinding: the stack is emptied, last claim first, the switch timer is cancelled and the Route Setter becomes IDLE
(R77). -/
def Ev.unwind (e : Ev) : Ev :=
  match e.p.rs.setting with
  | none => e
  | some s =>
    let e' := e.p.rs.stack.foldl (Ev.releaseClaim s.train) e
    (e'.mod (fun p => p.modSetter (fun r => { r with stack := [], timer := none, setting := none }))).woken

/-- The claims of an active route are released, held locks from last to first, then the RESERVE, and the permit of the
released zone becomes HOLD (R82, R83). -/
def Ev.releaseRoute (e : Ev) (r : ActiveRoute) : Ev :=
  ((r.locks.reverse.foldl (Ev.releaseClaim r.train) e).releaseReserve r.succ r.train).setPermit r.zone .hold

/-- Take the active routes that `sel` picks out of the table and release each (R82, R83). -/
def Ev.removeRoutes (e : Ev) (sel : ActiveRoute → Bool) : Ev :=
  (e.p.rs.routes.filter sel).foldl Ev.releaseRoute
    (e.mod (fun p => p.modSetter (fun s => { s with routes := s.routes.filter (fun r => !sel r) })))

/-- Remove the requests that `sel` picks; their refusal expiries and marks go with them (R67, R113). -/
def Ev.removeRequests (e : Ev) (sel : Request → Bool) : Ev :=
  e.mod (fun p => p.modSetter (fun s => { s with requests := s.requests.filter (fun q => !sel q) }))

/-- A route that a setting leaves without result: ROUTE_FAILED for the requesting zone and train (R88). -/
def Ev.routeFailed (e : Ev) (z : ZoneId) (x : TrainId) (reason : RouteFailure) : Ev :=
  e.record e.p.now (some z) (some x) (.routeFailed reason)

/-- Abort the setting in progress, if any, with ROUTE_FAILED CANCELLED (R84); the request stays where it is. -/
def Ev.abortSetting (e : Ev) : Ev :=
  match e.p.rs.setting with
  | none => e
  | some s => e.unwind.routeFailed s.zone s.train .cancelled

/-- Cancel the SET routes that `sel` picks, each with ROUTE_FAILED CANCELLED (R82).  Of several, all are released first and
then all recorded, each time in the order of the active route table (DESIGN CHOICE, assumption log 21). -/
def Ev.cancelRoutes (e : Ev) (sel : ActiveRoute → Bool) : Ev :=
  (e.p.rs.routes.filter (fun r => sel r && r.phase == .set)).foldl
    (fun e r => e.routeFailed r.zone r.train .cancelled) (e.removeRoutes (fun r => sel r && r.phase == .set))

end Sys2Proof.Machine
end

