-- ==== Sys2Proof/Machine/Tracking.lean ====
section
/-! DEFINITION. The Tracking Unit: tracking faults (R43), the entry into RELEASING (R37), the speed trap and the transit
limit (R52 to R56), the lift pause (R58, R59), the edges of each role in each zone state (R27 to R44, R47), and the
zone faults of lost edges (R46). -/

namespace Sys2Proof.Machine

/-! ## Faults (R43) -/

/-- The setting in progress is for zone `z`: unwind it (R43, R75). -/
def Ev.unwindFor (e : Ev) (z : ZoneId) : Ev := if e.p.isSetting z then e.unwind else e

/-- The zone is the tail zone of the train. -/
def Part.isTailOf (p : Part) (z : ZoneId) (x : TrainId) : Bool := (p.train x).tail == some z

/-- A tracking fault in zone `z`, found at ring time `time` (R43).  A zone already in FAULT is not faulted again (R44). -/
def Ev.fault (e : Ev) (z : ZoneId) (reason : FaultReason) (time : RingTime) : Ev :=
  let d := e.p.zone z
  let x := d.occupant
  let leaving := x.filter (fun t => e.p.isTailOf z t)
  -- steps 1 to 3: the zone, its occupant and its epoch
  let e := (e.setZone z .fault (if leaving.isSome then none else x)).modZone z (fun d =>
    { d with reason := some reason, deadline := none, remainder := none, pauseMark := false, trap := .none
             trapExpiry := none, transitExpiry := none, releaseTimer := none })
  let e := match leaving with
    | none => e
    | some t => e.modTrain t (fun r => { r with tail := none })
  -- steps 4 and 5: the permit, the routes out of the zone, its setting and its request
  let e := ((e.setPermit z .hold).removeRoutes (fun r => r.zone == z)).unwindFor z
  let e := e.removeRequests (fun q => q.zone == z)
  -- steps 6 and 7: the record and the cause
  (e.record time (some z) x (.trackingFault reason)).raise .tracking

/-! ## Entry into RELEASING (R37) -/

/-- Zone `z` enters RELEASING at `time`; its route becomes COMMITTED (R34, R36, R37, R81).  A FAULT zone's reason becomes
absent and a LOST occupant PRESENT (R142).  A release out of a STATION or LAUNCH zone is handed to the Dispatch Unit
(R116). -/
def Ev.enterReleasing (e : Ev) (z : ZoneId) (rec : ZoneRec) (x : TrainId) (time : RingTime) (passThrough : Bool) : Ev :=
  let limit := addTicks time (msTicks rec.tClear.toNat)
  let e := (e.setZone z .releasing (some x)).modZone z (fun d =>
    { d with deadline := some limit, releaseTimer := some limit, reason := none, remainder := none, pauseMark := false
             transitExpiry := none, trapExpiry := none
             trap := if d.trap = .pending then .none else d.trap })
  let e := e.modTrain x (fun t => { t with state := if t.state = .lost then .present else t.state })
  let e := e.mod (fun p => p.modSetter (fun s =>
    { s with routes := s.routes.map (fun r => if r.zone == z && r.train == x then { r with phase := .committed } else r) }))
  let e := e.record time (some z) (some x) (.trainReleased passThrough)
  let e := e.mod (fun p => p.modDeviceHealth z (fun h => { h with operations := h.operations + 1 }))
  if !passThrough && (rec.kind == .station || rec.kind == .launch) then
    { e with dispatches := e.dispatches ++ [{ zone := z, train := x, time := time }] }
  else e

/-! ## Speed (R53 to R56) -/

/-- The measured speed of a trap interval `dt` of 0 to 65,535 ticks (R53). -/
def trapSpeed (gap : BitVec 16) (dt : Nat) : BitVec 16 :=
  if dt = 0 then 65000 else BitVec.ofNat 16 (min (gap.toNat * 10000 / dt) 65000)

/-- The effective transit limit in milliseconds of a measured or expired (0) speed (R55). -/
def transitLimit (rec : ZoneRec) (v : Nat) : Nat :=
  let tMax := rec.tMax.toNat
  if v = 0 then 2 * tMax
  else if rec.vRef.toNat ≤ v then tMax
  else min (2 * tMax) (tMax * rec.vRef.toNat / v)

/-- The speed check (R54), the record bearing ring time `time`. -/
def Ev.checkSpeed (e : Ev) (z : ZoneId) (rec : ZoneRec) (x : Option TrainId) (v : BitVec 16) (time : RingTime) : Ev :=
  if rec.vMax.toNat < v.toNat then (e.record time (some z) x (.overspeed v)).raise .overspeed
  else if v.toNat < rec.vMin.toNat then e.record time (some z) x (.underspeed v)
  else e

/-- The deadline of a zone lengthened by `inc` ticks: while it is paused the remainder grows too and no transit expiry
starts, else the expiry moves to the new deadline plus P (R56, R60). -/
def ZoneDyn.stretch (d : ZoneDyn) (inc cycle : Nat) : ZoneDyn :=
  let deadline := d.deadline.map (fun t => addTicks t inc)
  match d.remainder with
  | some r => { d with deadline := deadline, remainder := some (addTicks r inc) }
  | none => { d with deadline := deadline, transitExpiry := deadline.map (fun t => addTicks t cycle) }

/-- The transit limit is recomputed from a measured speed, or from 0 for an expired trap (R56). -/
def Ev.stretchLimit (e : Ev) (z : ZoneId) (rec : ZoneRec) (v : Nat) : Ev :=
  let inc := msTicks (transitLimit rec v - rec.tMax.toNat)
  e.modZone z (fun d => d.stretch inc e.p.cycleTicks)

/-- A measured speed is stored in the zone and in its occupant (R32, R52, R53). -/
def Ev.storeSpeed (e : Ev) (z : ZoneId) (v : BitVec 16) (trap : TrapState) : Ev :=
  let e' := e.modZone z (fun d => { d with speed := some v, trap := trap, trapExpiry := none })
  match (e.p.zone z).occupant with
  | none => e'
  | some x => e'.modTrain x (fun t => { t with lastSpeed := some v })

/-- The trap of zone `z` expires, with expiry time `time` (R52 steps 1 to 5). -/
def Ev.expireTrap (e : Ev) (z : ZoneId) (rec : ZoneRec) (time : RingTime) : Ev :=
  let x := (e.p.zone z).occupant
  let e := (e.storeSpeed z 0 .expired).record time (some z) x .trapExpired
  (e.checkSpeed z rec x 0 time).stretchLimit z rec 0

/-- The trap of zone `z`, entered at `a`, completes at `t` (R53). -/
def Ev.completeTrap (e : Ev) (z : ZoneId) (rec : ZoneRec) (a t : RingTime) : Ev :=
  let dt := elapsed a t
  if 65535 < dt then e.expireTrap z rec (addTicks a 65535)
  else
    let v := trapSpeed rec.trapGap dt
    let x := (e.p.zone z).occupant
    ((e.storeSpeed z v .done).checkSpeed z rec x v t).stretchLimit z rec v.toNat

/-! ## The lift pause (R58, R59) -/

/-- The deadline of a MOVING LIFT zone is paused at `t`; a deadline already paused stays as it is (R58). -/
def ZoneDyn.pause (d : ZoneDyn) (t : RingTime) : ZoneDyn :=
  match d.remainder, d.deadline with
  | none, some deadline =>
    { d with remainder := some (BitVec.ofNat 32 (elapsed t deadline)), transitExpiry := none, pauseMark := true }
  | _, _ => d

/-- The deadline of a paused MOVING LIFT zone resumes at `t` (R59). -/
def ZoneDyn.resume (d : ZoneDyn) (t : RingTime) (cycle : Nat) : ZoneDyn :=
  match d.remainder with
  | none => d
  | some r =>
    let deadline := t + r
    { d with deadline := some deadline, remainder := none, transitExpiry := some (addTicks deadline cycle) }

/-! ## TRAP_A (R30, R31) -/

/-- A rising TRAP_A edge of zone `s` at `t` is a normal entry of train `x` out of zone `z` (R30). -/
def Part.normalEntry (p : Part) (s : ZoneId) : Option (TrainId × ZoneId) :=
  match (p.zone s).state, (p.zone s).occupant with
  | .reserved, some x =>
    match (p.train x).head, (p.train x).tail with
    | some z, none => if (p.zone z).state = .releasing then some (x, z) else none
    | _, _ => none
  | _, _ => none

/-- Post an AUTO_ENTRY request (R65). -/
def Ev.postAuto (e : Ev) (z : ZoneId) (x : TrainId) (t : RingTime) : Ev :=
  (e.mod (fun p => p.modSetter (fun s =>
    { s with requests := s.requests ++
        [{ zone := z, train := x, origin := .autoEntry, posted := t, reported := false, refusal := none }] }))).woken

/-- The normal entry (R30, R52, R56, R58). -/
def Ev.enter (e : Ev) (s : ZoneId) (rec : ZoneRec) (x : TrainId) (z : ZoneId) (t : RingTime) : Ev :=
  let deadline := addTicks t (msTicks rec.tMax.toNat)
  let hasTrap := rec.trapB.isSome
  let e := (e.setZone s .moving (some x)).modZone s (fun d =>
    { d with entryTime := some t, speed := none, pauseMark := false, remainder := none
             trap := if hasTrap then .pending else .none
             trapExpiry := if hasTrap then some (addTicks t 65535) else none
             deadline := some deadline, transitExpiry := some (addTicks deadline e.p.cycleTicks) })
  let e := if rec.kind = .lift ∧ e.p.closedFb rec then e.modZone s (fun d => d.pause t) else e
  let e := e.modTrain x (fun r => { r with head := some s, tail := some z, reserved := none })
  let e := if e.p.mode = .runAuto ∧ (rec.kind = .block ∨ rec.kind = .lift) ∧ rec.passThrough then e.postAuto s x t
    else e
  e.record t (some s) (some x) (.zoneEntered z)

/-- A rising TRAP_A edge (R30, R31). -/
def Ev.edgeTrapA (e : Ev) (s : ZoneId) (rec : ZoneRec) (t : RingTime) : Ev :=
  match e.p.normalEntry s with
  | some (x, z) => e.enter s rec x z t
  | none =>
    match (e.p.zone s).state with
    | .unarmed | .outOfService | .fault => e
    | .reserved =>
      match (e.p.zone s).occupant with
      | some x => if (e.p.train x).tail.isSome then e.fault s .overlapExceeded t else e.fault s .unexpectedEntry t
      | none => e.fault s .unexpectedEntry t
    | .free | .moving | .held | .releasing => e.fault s .unexpectedEntry t

/-! ## TRAP_B (R32, R53) -/

/-- A rising TRAP_B edge reported by node `n` (R32, R53). -/
def Ev.edgeTrapB (e : Ev) (n : NodeId) (s : ZoneId) (rec : ZoneRec) (t : RingTime) : Ev :=
  match (e.p.zone s).state, (e.p.zone s).trap, (e.p.zone s).entryTime with
  | .unarmed, _, _ => e
  | .moving, .pending, some a => e.completeTrap s rec a t
  | _, _, _ => e.stray n

/-! ## STOP (R33 to R35, R44, R57) -/

/-- An arrival taken in a MOVING zone (R34).  OPEN_FB is read in the latest levels of the hold node: they are those of the
frame where STOP is an input of that node, and the last ones reported where it is not (DESIGN CHOICE, assumption log 24).
An AUTO_ENTRY request of a train that becomes HELD stays queued (DESIGN CHOICE against R121, assumption log 29). -/
def Ev.arrive (e : Ev) (s : ZoneId) (rec : ZoneRec) (x : TrainId) (t : RingTime) : Ev :=
  if e.p.openFb rec && e.p.hasSetRoute s x then e.enterReleasing s rec x t true
  else
    let speed := (e.p.zone s).speed
    let e := (e.setZone s .held (some x)).modZone s (fun d =>
      { d with deadline := none, remainder := none, pauseMark := false, transitExpiry := none, trapExpiry := none
               trap := if d.trap = .pending then .none else d.trap })
    e.record t (some s) (some x) (.trainHeld speed)

/-- A rising STOP edge of a MOVING zone: the transit window test, then the arrival (R33, R57). -/
def Ev.stopMoving (e : Ev) (s : ZoneId) (rec : ZoneRec) (t : RingTime) : Ev :=
  let d := e.p.zone s
  let late := match d.deadline with
    | some dl => isAfter t dl
    | none => false
  let el := match d.entryTime with
    | some a => elapsed a t
    | none => 0
  if late then e.fault s .lateArrival t
  else
    match d.occupant with
    | none => e
    | some x =>
      let e := if !d.pauseMark && decide (el < msTicks rec.tMin.toNat) then
          e.record t (some s) (some x) (.earlyArrival (el / 10))
        else e
      e.arrive s rec x t

/-- A rising STOP edge reported by node `n` (R33, R35, R44, R47). -/
def Ev.edgeStop (e : Ev) (n : NodeId) (s : ZoneId) (rec : ZoneRec) (t : RingTime) : Ev :=
  match (e.p.zone s).state with
  | .unarmed => e
  | .moving => e.stopMoving s rec t
  | .free | .reserved => e.fault s .unexpectedPresence t
  | .held | .releasing | .outOfService => e.stray n
  | .fault =>
    if (e.p.zone s).reason = some .lost then e.record t (some s) (e.p.zone s).occupant .lateStop else e.stray n

/-! ## CLEAR (R40) -/

/-- The CLEAR edge of a tail zone frees it and releases its route (R40, R83). -/
def Ev.clearTail (e : Ev) (z : ZoneId) (x : TrainId) (t : RingTime) : Ev :=
  let e := ((e.setZone z .free none).modZone z ZoneDyn.cleared).modTrain x (fun r => { r with tail := none })
  let e := (e.removeRoutes (fun r => r.zone == z)).setPermit z .hold
  e.record t (some z) (some x) .zoneCleared

/-- A falling CLEAR edge reported by node `n` (R40, R44, R47). -/
def Ev.edgeClear (e : Ev) (n : NodeId) (z : ZoneId) (t : RingTime) : Ev :=
  match (e.p.zone z).state, (e.p.zone z).occupant with
  | .unarmed, _ => e
  | .releasing, some x => if e.p.isTailOf z x then e.clearTail z x t else e.fault z .clearBeforeEntry t
  | _, _ => e.stray n

/-! ## Feedback edges (R36, R38, R44) -/

/-- A rising OPEN_FB edge (R36, R38, R44, R59). -/
def Ev.edgeOpen (e : Ev) (s : ZoneId) (rec : ZoneRec) (t : RingTime) : Ev :=
  match (e.p.zone s).state, (e.p.zone s).occupant with
  | .held, some x | .fault, some x => if e.p.hasSetRoute s x then e.enterReleasing s rec x t false else e
  | .moving, _ => if rec.kind = .lift then e.modZone s (fun d => d.resume t e.p.cycleTicks) else e
  | _, _ => e

/-- A rising CLOSED_FB edge (R38, R58). -/
def Ev.edgeClosed (e : Ev) (s : ZoneId) (rec : ZoneRec) (t : RingTime) : Ev :=
  if (e.p.zone s).state = .moving ∧ rec.kind = .lift then e.modZone s (fun d => d.pause t) else e

/-! ## The roles of an input (R27) -/

/-- The roles of a zone's inputs (R27). -/
inductive Role where
  | openFb | closedFb | trapA | trapB | stop | clear
  deriving DecidableEq, Repr

/-- The references of a zone in the scan order of check 6 (R12), ready inputs apart. -/
def ZoneRec.roles (r : ZoneRec) : List (Role × SensorRef) :=
  [(.openFb, { node := r.holdNode, ch := r.openFb }), (.closedFb, { node := r.holdNode, ch := r.closedFb }),
    (.trapA, r.trapA)] ++ (r.trapB.toList.map (fun x => (.trapB, x))) ++ [(.stop, r.stop), (.clear, r.clear)]

/-- The zone and role an input of node `n` has; check 6 makes it the only one (R27). -/
def Part.roleOf (p : Part) (n : NodeId) (ch : Channel) : Option (ZoneId × ZoneRec × Role) :=
  allZones.findSome? (fun z =>
    match p.zoneRec z with
    | none => none
    | some r => (r.roles.find? (fun x => x.2.node == n && x.2.ch == ch)).map (fun x => (z, r, x.1)))

/-- One edge of a report of node `n`, in list order (R26, R27, R28). -/
def Ev.takeEdge (n : NodeId) (e : Ev) (g : Edge) : Ev :=
  match e.p.roleOf n g.ch with
  | none => e
  | some (z, rec, role) =>
    let t := clampTime e.p.now g.time
    match role, g.rising with
    | .trapA, true => e.edgeTrapA z rec t
    | .trapB, true => e.edgeTrapB n z rec t
    | .stop, true => e.edgeStop n z rec t
    | .clear, false => e.edgeClear n z t
    | .openFb, true => e.edgeOpen z rec t
    | .closedFb, true => e.edgeClosed z rec t
    | _, _ => e

/-! ## Lost edges (R45, R46) -/

/-- The zone has a track sensor or a feedback input on node `n` (R46). -/
def ZoneRec.onNode (r : ZoneRec) (n : NodeId) : Bool := r.roles.any (fun x => x.2.node == n)

/-- The zone faults of lost edges at node `n`, in ascending zone order (R46). -/
def Ev.faultLost (e : Ev) (n : NodeId) : Ev :=
  allZones.foldl (fun e z =>
    match e.p.zoneRec z with
    | none => e
    | some r =>
      match (e.p.zone z).state with
      | .reserved | .moving | .releasing => if r.onNode n then e.fault z .edgeLoss e.p.now else e
      | _ => e) e

/-- The edge counter check finds lost edges: outside CONFIG, against the last edge counter of the node (R45). -/
def Part.edgesMissing (p : Part) (r : Report) : Bool :=
  match p.cls.lastCounter[r.node] with
  | none => false
  | some c => p.mode != .config && (c + BitVec.ofNat 8 r.edges.length != r.counter)

/-- The edge counter check of a report, and the new last edge counter (R45). -/
def Ev.checkCounter (e : Ev) (r : Report) : Ev :=
  let e' := if e.p.edgesMissing r then (e.edgesLost r.node).faultLost r.node else e
  e'.mod (fun p => { p with cls := { p.cls with lastCounter := p.cls.lastCounter.set r.node (some r.counter) } })

end Sys2Proof.Machine
end

