-- ==== Sys2Proof/Machine/Stations.lean ====
section
/-! DEFINITION. The Dispatch Unit: readiness of a station or launch (R109 to R111), the dispatch moment (R61, R116), the
service test (R117), refusal reporting (R112) and loss of readiness (R114, R115). -/

namespace Sys2Proof.Machine

/-! ## Readiness (R109, R110) -/

/-- A zone of this kind is dispatched from (R116). -/
def ZoneKind.dispatches : ZoneKind → Bool
  | .station | .launch => true
  | .lift | .block | .storage => false

/-- The first inactive position of the ready inputs; absent when every one reads active (R109). -/
def Part.firstInactive (p : Part) (rec : ZoneRec) : Option Nat := rec.ready.findIdx? (fun r => !p.level r)

/-- The gap condition (R61, R110). -/
def Part.gapMet (p : Part) : Bool := p.dsp.last.isNone || p.dsp.gap == .met

/-- The readiness conditions of a station or launch; every other zone meets them (condition 5 of R69, R111). -/
def Part.stationReady (p : Part) (rec : ZoneRec) : Bool :=
  match rec.kind with
  | .station => (p.firstInactive rec).isNone && p.gapMet
  | .launch => (p.firstInactive rec).isNone
  | .lift | .block | .storage => true

/-! ## The dispatch moment (R61, R116, R117) -/

/-- The dispatch gap starts at dispatch time `t` (R61). -/
def Part.startGap (p : Part) (t : RingTime) : Part :=
  let gap := p.store.params.dispatchGap.toNat
  { p with dsp :=
      if gap = 0 then { last := some t, gap := .met, expiry := none }
      else { last := some t, gap := .running, expiry := some (addTicks t (msTicks gap)) } }

/-- The service test of train `x` at its station dispatch, on the lap count after the rise (R116, R117).  SERVICE_DUE follows the records of the event, as
R183 has it, and so stands after the DISPATCHED record of its dispatch (R117, R123), though not always next to it
(DESIGN CHOICE, assumption log 20). -/
def Ev.serviceTest (e : Ev) (z : ZoneId) (x : TrainId) (t : RingTime) : Ev :=
  let r := e.p.train x
  let limit := e.p.store.params.lapThreshold.toNat
  if decide (0 < limit) && decide (limit ≤ r.laps.toNat) && !r.serviceDue then
    let e := (e.modTrain x (fun r => { r with serviceDue := true })).setDivert x true
    { e.mod (fun p => p.modMgmt (fun m => { m with healthAlert := true })) with
      late := e.late ++ [{ time := some t, zone := some z, train := some x, body := .serviceDue r.laps }] }
  else e

/-- One dispatch is recorded (R116).  The service test is made at every station dispatch, as R116 and its table have it, also
for a lap count that stands at 4,294,967,295 already and so does not rise, which R117 and R183 test only at a rise (DESIGN
CHOICE, assumption log 28). -/
def Ev.recordDispatch (e : Ev) (n : DispatchNote) : Ev :=
  match e.p.zoneRec n.zone with
  | none => e
  | some rec =>
    match rec.kind with
    | .station =>
      let laps := sat32 (e.p.train n.train).laps
      let e := (e.mod (fun p => p.startGap n.time)).modTrain n.train (fun r => { r with laps := laps })
      (e.record n.time (some n.zone) (some n.train) (.dispatched laps)).serviceTest n.zone n.train n.time
    | .launch => e.record n.time (some n.zone) (some n.train) (.dispatched 0)
    | .lift | .block | .storage => e

/-- The dispatches of the event so far are recorded, in order (R26, R116). -/
def Ev.recordDispatches (e : Ev) : Ev := e.dispatches.foldl Ev.recordDispatch { e with dispatches := [] }

/-! ## Refusal reporting (R112) -/

/-- The duration of a refusal expiry: one cycle period and one tick (R112). -/
def Part.refusalTicks (p : Part) : Nat := p.cycleTicks + 1

/-- Change the requests for zone `z`. -/
def Part.modRequest (p : Part) (z : ZoneId) (f : Request → Request) : Part :=
  p.modSetter (fun s => { s with requests := s.requests.map (fun q => if q.zone == z then f q else q) })

/-- A request is reported: its mark is set and no refusal expiry runs for it (R112, R115). -/
def Part.markReported (p : Part) (z : ZoneId) : Part :=
  p.modRequest z (fun q => { q with reported := true, refusal := none })

/-- The refusal expiry of the request for `z`, by train `x`, is taken at its time `t` (R112). -/
def Ev.takeRefusal (e : Ev) (z : ZoneId) (rec : ZoneRec) (x : TrainId) (t : RingTime) : Ev :=
  let again := e.mod (fun p => p.modRequest z (fun q => { q with refusal := some (addTicks p.now p.refusalTicks) }))
  if e.p.isSetting z then again
  else
    match e.p.firstInactive rec with
    | some i => (e.mod (fun p => p.markReported z)).record t (some z) (some x) (.dispatchRefused (.notReady i))
    | none =>
      if rec.kind == .station && !e.p.gapMet then
        (e.mod (fun p => p.markReported z)).record t (some z) (some x) (.dispatchRefused .gap)
      else again

/-! ## Loss of readiness (R114, R115) -/

/-- The latest report of node `n` shows a ready input of the zone inactive. -/
def Part.readyLostAt (p : Part) (rec : ZoneRec) (n : NodeId) : Bool :=
  rec.ready.any (fun r => r.node == n && !p.level r)

/-- DISPATCH_REFUSED with reason READY_LOST (R114, R115). -/
def Ev.recordReadyLost (e : Ev) (z : ZoneId) (rec : ZoneRec) (x : TrainId) : Ev :=
  e.record e.p.now (some z) (some x) (.dispatchRefused (.readyLost ((e.p.firstInactive rec).getD 0)))

/-- The readiness tests of zone `z` after a report of node `n`: the cancellation of R114, the abort of R115.  An abort
queues READY_LOST also for a request that has been reported before, as R115 says, against "not reported again" of R112
(DESIGN CHOICE, assumption log 22). -/
def Ev.testReady (n : NodeId) (e : Ev) (z : ZoneId) : Ev :=
  match e.p.zoneRec z with
  | none => e
  | some rec =>
    if rec.kind.dispatches && e.p.readyLostAt rec n then
      match e.p.rs.routes.find? (fun r => r.zone == z && r.phase == .set), e.p.rs.setting with
      | some r, _ =>
        if (e.p.zone z).state = .held then
          (e.removeRoutes (fun r => r.zone == z && r.phase == .set)).recordReadyLost z rec r.train
        else e
      | none, some s =>
        if s.zone == z && e.p.rs.timer.isSome then
          (e.unwind.mod (fun p => p.markReported z)).recordReadyLost z rec s.train
        else e
      | none, none => e
    else e

/-- The readiness tests of every zone in ascending order (R123). -/
def Ev.testAllReady (e : Ev) (n : NodeId) : Ev := allZones.foldl (Ev.testReady n) e

end Sys2Proof.Machine
end

