-- ==== Sys2Proof/Machine/Routes.lean ====
section
/-! DEFINITION. The Route Setter: posting and withdrawing requests (R65 to R67), readiness and branch selection (R69 to
R71), executing claims (R72 to R76), completion (R78, R79), the examination of the queue (R68), and the supervision of
held switches (R86). -/

namespace Sys2Proof.Machine

/-! ## Posting and withdrawing (R66, R67) -/

/-- A release value posts a LEVEL request when the conditions of R66 hold; a station or launch request starts its
refusal expiry (R112).  A zone HELD with its AUTO_ENTRY request still queued posts none (DESIGN CHOICE against R121,
assumption log 29). -/
def Ev.postLevel (e : Ev) (z : ZoneId) (rec : ZoneRec) : Ev :=
  match (e.p.zone z).state, (e.p.zone z).occupant with
  | .held, some x =>
    if e.p.mode.mayRelease && !e.p.hasRequest z && !e.p.hasRoute z x then
      let refusal := if rec.kind.dispatches then some (addTicks e.p.now e.p.refusalTicks) else none
      (e.mod (fun p => p.modSetter (fun s =>
        { s with requests := s.requests ++
            [{ zone := z, train := x, origin := .level, posted := p.now, reported := false, refusal := refusal }] }))).woken
    else e
  | _, _ => e

/-- A hold value removes the waiting LEVEL request for the zone and cancels a SET route out of it (R67, R82). -/
def Ev.withdraw (e : Ev) (z : ZoneId) : Ev :=
  let e := if e.p.isSetting z then e else e.removeRequests (fun q => q.zone == z && q.origin == .level)
  e.cancelRoutes (fun r => r.zone == z)

/-! ## Readiness and branch selection (R69, R71) -/

/-- Every claim of the zone's route by this branch is claimable now (R70, R71). -/
def Part.branchAvailable (p : Part) (z : ZoneId) (br : Branch) : Bool :=
  match p.routeRec z br with
  | none => false
  | some r => r.claims.all p.claimable

/-- The other branch. -/
def Branch.other : Branch → Branch
  | .a => .b
  | .b => .a

/-- The branch that branch selection gives for zone `z` and train `x`; absent when the request is not ready (R71). -/
def Part.selectBranch (p : Part) (z : ZoneId) (rec : ZoneRec) (x : TrainId) : Option Branch :=
  let only := fun br => if p.branchAvailable z br then some br else none
  if rec.succB.isNone then only .a
  else
    match rec.rule with
    | .fixedA => only .a
    | .alternate => only (p.zone z).lastBranch.other
    | .firstFree => if p.branchAvailable z .a then some .a else only .b
    | .divert => only (if (p.train x).divert then .b else .a)

/-- The request is ready, with the branch to set (R69): an AUTO_ENTRY request in a HELD zone too, with no release value
taken since (DESIGN CHOICE against R121, assumption log 29). -/
def Part.ready (p : Part) (q : Request) : Option Branch :=
  match p.zoneRec q.zone with
  | none => none
  | some rec =>
    let st := (p.zone q.zone).state
    if p.mode.mayRelease && (p.train q.train).head == some q.zone && (p.zone q.zone).occupant == some q.train &&
        (st == .held || (st == .moving && q.origin == .autoEntry)) && !p.hasRoute q.zone q.train &&
        p.stationReady rec then
      p.selectBranch q.zone rec q.train
    else none

/-! ## Ends of a setting (R73, R76, R78, R79) -/

/-- A claim found unclaimable at its execution: the stack is unwound and the request stays (R73). -/
def Ev.claimLost (e : Ev) (s : Setting) : Ev := e.unwind.routeFailed s.zone s.train .claimLost

/-- SWITCH_FAULT of a waiting claim on switch `i` of node `n` (R76). -/
def Ev.switchFault (e : Ev) (s : Setting) (i : SwitchId) (n : NodeId) (reason : SwitchFailure) (failure : RouteFailure) :
    Ev :=
  let e := (e.mod (fun p => (p.modSetter (fun r => { r with timer := none })).modSwitch i
    (fun d => { d with inService := false }))).woken
  let e := e.record e.p.now (some s.zone) (some s.train) (.switchFault reason n)
  (e.unwind.removeRequests (fun q => q.zone == s.zone)).routeFailed s.zone s.train failure

/-- The request being set has been withdrawn in flight (R79). -/
def Part.withdrawn (p : Part) (s : Setting) : Bool :=
  match s.origin with
  | .level => (p.device s.zone).asSent == some .hold
  | .autoEntry => p.mode == .runManual

/-- A route out of `z` by `br` for `x` enters the table in phase SET and the permit opens (R78, R142). -/
def Ev.openRoute (e : Ev) (r : ActiveRoute) : Ev :=
  (e.mod (fun p => p.modSetter (fun s => { s with routes := s.routes ++ [r] }))).setPermit r.zone .opened

/-- A zone whose route has reached SET over a device already open starts its release at once (R36, R78). -/
def Ev.releaseIfOpen (e : Ev) (z : ZoneId) (rec : ZoneRec) (x : TrainId) (st : ZoneState) : Ev :=
  if (e.p.zone z).state = st ∧ e.p.openFb rec then (e.enterReleasing z rec x e.p.now false).recordDispatches else e

/-- The last branch taken of an ALTERNATE zone and the divert mark of a train sent by B out of a DIVERT zone (step 4 of
R78).  The rule is used only when successor B is present (R5): without it the last branch is kept (R120; DEDUCED, assumption
log 23). -/
def Ev.noteBranch (e : Ev) (z : ZoneId) (rec : ZoneRec) (x : TrainId) (br : Branch) : Ev :=
  match rec.rule with
  | .alternate => if rec.succB.isSome then e.modZone z (fun d => { d with lastBranch := br }) else e
  | .divert => if br = .b then e.setDivert x false else e
  | .fixedA | .firstFree => e

/-- The last claim of the setting has completed (R78, R79).  The first claim of a route is the RESERVE of its successor
(check 14 of R13).  A release over a device already open, with its dispatch and a started gap, comes after ROUTE_SET and
before the examination of step 6, which stands at the end of the event (DESIGN CHOICE, assumption log 19). -/
def Ev.completeSetting (e : Ev) (s : Setting) : Ev :=
  if e.p.withdrawn s then
    (e.unwind.removeRequests (fun q => q.zone == s.zone)).routeFailed s.zone s.train .withdrawn
  else
    match e.p.zoneRec s.zone, e.p.rs.stack.reverse with
    | some rec, .reserve r :: locks =>
      let e := e.mod (fun p => p.modSetter (fun r => { r with stack := [], setting := none, timer := none }))
      let e := e.openRoute
        { zone := s.zone, train := s.train, branch := s.branch, succ := r, locks := locks, phase := .set }
      let e := (e.removeRequests (fun q => q.zone == s.zone)).noteBranch s.zone rec s.train s.branch
      let e := (e.record e.p.now (some s.zone) (some s.train) (.routeSet s.branch)).woken
      e.releaseIfOpen s.zone rec s.train .held
    | _, _ => e.unwind

/-! ## Executing claims (R72 to R75) -/

/-- A claim is pushed; its index in the route is the number of claims below it (R63, R72). -/
def Ev.push (e : Ev) (c : Claim) : Ev :=
  e.mod (fun p => p.modSetter (fun r =>
    { r with stack := c :: r.stack, setting := r.setting.map (fun s => { s with index := r.stack.length }) }))

/-- The switch timer starts (R74). -/
def Ev.startSwitchTimer (e : Ev) : Ev :=
  e.mod (fun p => p.modSetter (fun r =>
    { r with timer := some (addTicks p.now (msTicks p.store.params.switchLimit.toNat)) }))

/-- The claims of a setting, from one of them on, are pushed and executed in list order until one must wait or the
setting ends (R72, R73, R74). -/
def Ev.runClaims (s : Setting) : List Claim → Ev → Ev
  | [], e => e.completeSetting s
  | c :: cs, e =>
    if !e.p.claimable c then e.claimLost s
    else
      match c with
      | .reserve r => Ev.runClaims s cs ((e.push c).reserve r s.train)
      | .flank z => Ev.runClaims s cs ((e.push c).addFlank z)
      | .switch n pos =>
        match e.p.switchOf n with
        | none => e.claimLost s
        | some i =>
          match e.p.store.switches[i] with
          | none => e.claimLost s
          | some rec =>
            let e := (e.push c).addHolder i pos
            match e.p.lockReading rec pos with
            | .good => Ev.runClaims s cs e
            | .both => e.switchFault s i n .bothLocks .switchLocks
            | .other => e.startSwitchTimer

/-- A ready request is started by branch `br` (R72). -/
def Ev.startRoute (e : Ev) (q : Request) (br : Branch) : Ev :=
  match e.p.routeRec q.zone br with
  | none => e
  | some r =>
    let s : Setting := { zone := q.zone, train := q.train, origin := q.origin, branch := br, index := 0 }
    Ev.runClaims s r.claims (e.mod (fun p => p.modSetter (fun rs => { rs with setting := some s, stack := [] })))

/-- The claim that waits on node `n`, after a report of that node or at the switch timer (R75). -/
def Ev.resumeClaim (e : Ev) (n : NodeId) : Ev :=
  match e.p.rs.setting, e.p.rs.stack with
  | some s, .switch m pos :: _ =>
    match e.p.waitsOn n, e.p.switchOf m with
    | true, some i =>
      match e.p.store.switches[i], e.p.routeRec s.zone s.branch with
      | some rec, some route =>
        match e.p.lockReading rec pos with
        | .good =>
          Ev.runClaims s (route.claims.drop (s.index + 1))
            (e.mod (fun p => p.modSetter (fun r => { r with timer := none })))
        | .both => e.switchFault s i m .bothLocks .switchLocks
        | .other => e
      | _, _ => e
    | _, _ => e
  | _, _ => e

/-- The switch timer of the waiting claim is taken (R75, R76). -/
def Ev.switchTimeout (e : Ev) : Ev :=
  match e.p.rs.setting, e.p.rs.timer, e.p.rs.stack with
  | some s, some _, .switch n _ :: _ =>
    match e.p.switchOf n with
    | some i => e.switchFault s i n .timeout .switchTimeout
    | none => e
  | _, _, _ => e

/-! ## The examination (R68) -/

/-- The oldest request that is ready, with its branch (R68). -/
def Part.firstReady (p : Part) : Option (Request × Branch) :=
  p.rs.requests.findSome? (fun q => (p.ready q).map (fun br => (q, br)))

/-- Examinations of the queue while the Route Setter is IDLE and something has woken it, at most `n` of them.  A setting
that ends within the event wakes it again; each one removes a request, so the number of requests is enough. -/
def Ev.examine : Nat → Ev → Ev
  | 0, e => { e with wake := false }
  | n + 1, e =>
    if e.wake && e.p.rs.setting.isNone then
      match e.p.firstReady with
      | none => { e with wake := false }
      | some (q, br) => Ev.examine n (Ev.startRoute { e with wake := false } q br)
    else { e with wake := false }

/-- The examinations at the end of an event. -/
def Ev.examineQueue (e : Ev) : Ev := e.examine e.p.rs.requests.length

/-! ## Supervision of held switches (R86) -/

/-- A report of the node of switch `i` is read for its lock (R86).  A good lock clears the lock-loss mark, also while a
claim waits on the switch; a lock that is not good counts only on a supervised switch, one that is held and that no claim
waits on. -/
def Ev.superviseSwitch (e : Ev) (i : SwitchId) (rec : SwitchRec) : Ev :=
  let d := e.p.switch i
  match d.commanded with
  | none => e
  | some pos =>
    match e.p.lockReading rec pos with
    | .good => e.mod (fun p => p.modSwitch i (fun d => { d with lockLost := false }))
    | reading =>
      if d.holders = 0 ∨ e.p.waitsOn rec.node ∨ d.lockLost then e
      else
        let e := e.mod (fun p => p.modSwitch i (fun d => { d with lockLost := true }))
        (e.record e.p.now none none
          (.switchFault (if reading = .both then .bothLocks else .lockLost) rec.node)).raise .switch

/-- The switch of node `n`, if it is supervised (R86). -/
def Ev.superviseLocks (e : Ev) (n : NodeId) : Ev :=
  match e.p.switchOf n with
  | none => e
  | some i =>
    match e.p.store.switches[i] with
    | none => e
    | some rec => e.superviseSwitch i rec

end Sys2Proof.Machine
end

