-- ==== Sys2Proof/Machine/Filter.lean ====
section
/-! DEFINITION. The Command Filter: feedback supervision (R98 to R102), and what it makes of a COMMAND frame at the moment
the F-out arbiter takes it (R92 to R96), and of the broadcast hold frame (R104). -/

namespace Sys2Proof.Machine

/-! ## Feedback supervision (R98 to R102) -/

/-- The device of a zone matches a value: its two feedback inputs show exactly the pair for it (R98). -/
def Part.matchesValue (p : Part) (rec : ZoneRec) (v : HoldValue) : Bool :=
  match v with
  | .release => p.openFb rec && !p.closedFb rec
  | .hold => !p.openFb rec && p.closedFb rec

/-- The feedback limit of a zone in ticks (R11, R98). -/
def ZoneRec.fbTicks (rec : ZoneRec) : Nat := msTicks rec.fbLimit.toNat

/-- The latch test of a FAULTED device (R102). -/
def Ev.latchTest (e : Ev) (z : ZoneId) (rec : ZoneRec) : Ev :=
  if (e.p.device z).forwarded = some .hold ∧ e.p.matchesValue rec .hold then
    e.mod (fun p => p.modDevice z (fun d => { d with latch := false, sup := .settled }))
  else e

/-- The forwarded value of a device becomes `v`; a change is tested by R99. -/
def Ev.setForwarded (e : Ev) (z : ZoneId) (rec : ZoneRec) (v : HoldValue) : Ev :=
  if (e.p.device z).forwarded = some v then e
  else
    let now := e.p.now
    let e := e.mod (fun p => p.modDevice z (fun d => { d with forwarded := some v, changeTime := some now }))
    if (e.p.device z).sup = .faulted then e.latchTest z rec
    else if e.p.matchesValue rec v then
      e.mod (fun p => p.modDevice z (fun d => { d with sup := .settled, timer := none }))
    else
      e.mod (fun p => p.modDevice z (fun d => { d with sup := .awaiting, timer := some (addTicks now rec.fbTicks) }))

/-- A report of the hold node is read for the device of zone `z` (R100). -/
def Ev.superviseDevice (e : Ev) (z : ZoneId) (rec : ZoneRec) : Ev :=
  let d := e.p.device z
  let good := match d.forwarded with
    | none => false
    | some v => e.p.matchesValue rec v
  let settle := e.mod (fun p => p.modDevice z (fun d => { d with sup := .settled, timer := none }))
  match d.sup with
  | .unsupervised => e
  | .settled =>
    if good then e
    else
      e.mod (fun p => p.modDevice z (fun d =>
        { d with sup := .deviating, timer := some (addTicks p.now rec.fbTicks) }))
  | .awaiting =>
    if !good then e
    else
      match d.changeTime with
      | some t => if rec.fbLimit.toNat * 5 < elapsed t e.p.now then settle.slowMatch z else settle
      | none => settle
  | .deviating => if good then settle else e
  | .faulted => e.latchTest z rec

/-- The devices of hold node `n`, in ascending zone order (R98, R100). -/
def Ev.superviseDevices (e : Ev) (n : NodeId) : Ev :=
  allZones.foldl (fun e z =>
    match e.p.zoneRec z with
    | none => e
    | some rec => if rec.holdNode = n then e.superviseDevice z rec else e) e

/-- The reason of a DEVICE_FAULT at the expiry of a supervision timer (R101). -/
def Part.deviceReason (p : Part) (z : ZoneId) (rec : ZoneRec) : DeviceFailure :=
  if p.openFb rec && p.closedFb rec then .bothFeedback
  else if (p.device z).sup = .deviating then .uncommanded
  else if (p.device z).forwarded = some .release then .noOpen
  else .noClose

/-- The supervision timer of the device of zone `z` is taken at its time `t` (R101). -/
def Ev.takeSupervision (e : Ev) (z : ZoneId) (rec : ZoneRec) (t : RingTime) : Ev :=
  let reason := e.p.deviceReason z rec
  let e := e.mod (fun p => p.modDevice z (fun d => { d with sup := .faulted, timer := none, latch := true }))
  (e.record t (some z) (e.p.zone z).occupant (.deviceFault reason)).raise .device

/-! ## A COMMAND frame to a HOLD node (R93) -/

/-- The loaded zone whose hold output is this channel of this node (R6; check 4 makes it the only one). -/
def Part.holdZone (p : Part) (n : NodeId) (ch : Channel) : Option (ZoneId × ZoneRec) :=
  allZones.findSome? (fun z =>
    match p.zoneRec z with
    | none => none
    | some rec => if rec.holdNode = n ∧ rec.holdCh = ch then some (z, rec) else none)

/-- Output values with one channel set to a bit. -/
def setChannel (outputs : BitVec 16) (ch : Channel) (v : Bool) : BitVec 16 :=
  if v then outputs ||| BitVec.ofNat 16 (2 ^ ch.val) else outputs &&& ~~~ BitVec.ofNat 16 (2 ^ ch.val)

/-- A COMMAND under the filter: the event, the output values as they leave, and whether a value was changed. -/
structure Filtering where
  ev : Ev
  outputs : BitVec 16
  changed : Bool
  deriving DecidableEq, Repr

/-- The as-sent value of a device becomes `v`: a release posts, a hold withdraws and cancels (step 1 of R93, R96). -/
def Ev.takeAsSent (e : Ev) (z : ZoneId) (rec : ZoneRec) (v : HoldValue) : Ev :=
  let e := e.mod (fun p => p.modDevice z (fun d => { d with asSent := some v }))
  match v with
  | .release => e.postLevel z rec
  | .hold => e.withdraw z

/-- A release value that the permit refuses is counted against the device (step 2 of R93). -/
def Ev.countOverride (e : Ev) (z : ZoneId) : Ev :=
  e.mod (fun p => p.modDeviceHealth z (fun h => { h with overrides := sat16 h.overrides }))

/-- One hold output channel of the frame, against the permits of `taken`, the part when the frame was taken (R93). -/
def Filtering.holdChannel (taken : Part) (n : NodeId) (c : Command) (f : Filtering) (ch : Channel) : Filtering :=
  match taken.holdZone n ch with
  | none => f
  | some (z, rec) =>
    let v := c.holdValue ch
    let e := f.ev.takeAsSent z rec v
    if v = .release ∧ (taken.device z).permit = .hold then
      { ev := (e.countOverride z).setForwarded z rec .hold, outputs := setChannel f.outputs ch false, changed := true }
    else { f with ev := e.setForwarded z rec v }

/-- A COMMAND frame to a node of class HOLD, channel by channel in ascending order (R93). -/
def Ev.filterHold (e : Ev) (n : NodeId) (c : Command) : Filtering :=
  allChannels.foldl (Filtering.holdChannel e.p n c) { ev := e, outputs := c.outputs, changed := false }

/-! ## A COMMAND frame to a SWITCH node (R94) -/

/-- The position that a position channel carries (11.2). -/
def positionOf (b : Bool) : Branch := if b then .b else .a

/-- A COMMAND frame to the node of switch `i` (R94). -/
def Ev.filterSwitch (e : Ev) (i : SwitchId) (rec : SwitchRec) (c : Command) : Filtering :=
  let d := e.p.switch i
  let sent := positionOf (c.outputs.getLsbD rec.posCh.val)
  if e.p.mode = .maint ∧ d.holders = 0 then
    let e := if d.commanded = some sent then e
      else (e.mod (fun p => p.modSwitch i (fun d => { d with commanded := some sent }))).woken
    { ev := e, outputs := c.outputs, changed := false }
  else
    match d.commanded with
    | none => { ev := e, outputs := c.outputs, changed := false }
    | some pos =>
      { ev := e, outputs := setChannel c.outputs rec.posCh (pos == .b), changed := pos != sent }

/-! ## Broadcasts (R96, R104) -/

/-- Something done for the hold device of every loaded zone, in ascending zone order. -/
def Ev.forDevices (f : Ev → ZoneId → ZoneRec → Ev) (e : Ev) : Ev :=
  allZones.foldl (fun e z =>
    match e.p.zoneRec z with
    | none => e
    | some rec => f e z rec) e

/-- The controller's broadcast hold is taken as the hold value for every device (R96). -/
def Ev.controllerHold (e : Ev) : Ev :=
  e.forDevices (fun e z rec => (e.takeAsSent z rec .hold).setForwarded z rec .hold)

/-- The injected broadcast hold frame is transmitted (R104). -/
def Ev.broadcastHeld (e : Ev) : Ev := e.forDevices (fun e z rec => e.setForwarded z rec .hold)

/-! ## The filter (R92) -/

/-- Why the filter drops a frame (R92). -/
inductive FilterDrop where
  | unlisted | configDrop
  deriving DecidableEq, Repr

/-- What the filter makes of a frame: dropped, or sent with its fields as they leave. -/
inductive Filtered where
  | dropped (e : Ev) (why : FilterDrop)
  | sent (e : Ev) (f : Frame) (changed : Bool)
  deriving DecidableEq, Repr

/-- A frame after its COMMAND went through the filter: a changed value sets the overridden flag (R92). -/
def Filtering.result (x : Filtering) (f : Frame) (c : Command) : Filtered :=
  if x.changed then
    .sent x.ev { f with payload := ({ flags := c.flags ||| 2, outputs := x.outputs } : Command).payload } true
  else .sent x.ev f false

/-- A COMMAND frame to a field node outside CONFIG (R92 to R95). -/
def Ev.filterNode (e : Ev) (n : NodeId) (f : Frame) (c : Command) : Filtered :=
  match e.p.nodeClass n with
  | some .hold => (e.filterHold n c).result f c
  | some .switch =>
    match e.p.switchOf n with
    | none => .sent e f false
    | some i =>
      match e.p.store.switches[i] with
      | none => .sent e f false
      | some rec => (e.filterSwitch i rec c).result f c
  | some .free | some .sensor | some .stationIo => .sent e f false
  | none =>
    match e.p.store.params.unlisted with
    | .pass => .sent e f false
    | .drop => .dropped e .unlisted

/-- A COMMAND frame to a field node in CONFIG: only FREE nodes are reached (R92, R95). -/
def Ev.filterConfig (e : Ev) (n : NodeId) (f : Frame) : Filtered :=
  if e.p.nodeClass n = some .free then .sent e f false else .dropped e .configDrop

/-- The filter takes a COMMAND frame (R92, R188). -/
def Ev.filter (e : Ev) (f : Frame) : Filtered :=
  match commandOf f with
  | none => .dropped e .unlisted
  | some c =>
    match nodeOf f.dest with
    | some n => if e.p.mode = .config then e.filterConfig n f else e.filterNode n f c
    | none =>
      if addrOf f.dest ≠ addrBroadcast then .dropped e .unlisted
      else if e.p.mode = .config then .dropped e .configDrop
      else if c.broadcastHold then .sent e.controllerHold f false
      else .dropped e .unlisted

end Sys2Proof.Machine
end

