-- ==== Sys2Proof/Machine/Modes.lean ====
section
/-! DEFINITION. The Mode Controller: a hold-all raise (R130, R131), the end of an event, the conditions RESTORE tests
(R137), mode changes (R126 to R129), and the recovery requests RESTORE, STOP, RECONCILE and OVERRIDE_RELEASE (R136 to
R143). -/

namespace Sys2Proof.Machine

/-! ## Mode changes (R126, R129) -/

/-- The mode becomes `m`: HEALTHY follows it, MODE_CHANGED is queued and the Route Setter is woken (R126, R129). -/
def Ev.changeMode (e : Ev) (m : Mode) : Ev :=
  let before := e.p.mode
  ((e.mod (fun p => p.modMode (fun c => { c with mode := m, healthy := m.running }))).record e.p.now none none
    (.modeChanged before m)).woken

/-- The hold-all latch is cleared with its causes; the repetition and a pending injection end (R130, R152). -/
def Ev.clearLatch (e : Ev) : Ev :=
  e.mod (fun p => (p.modMode (fun c => { c with latch := false, causes := [], first := none })).modRing
    (fun r => { r with bcastPending := false, bcastTimer := none }))

/-! ## A hold-all raise (R131) -/

/-- Every cause, in the order of the codes. -/
def allCauses : List Cause :=
  [.tracking, .overspeed, .device, .switch, .silence, .fieldLink, .time, .estop, .supply, .stopRequest, .key]

/-- A cause joins the cause set (step 1 of R131). -/
def addCause (cs : List Cause) (c : Cause) : List Cause := allCauses.filter (fun x => x == c || cs.contains x)

/-- The cause joins the set; a raise that finds the latch clear sets it and is the first cause (R130, R131). -/
def ModeCtl.latchCause (m : ModeCtl) (c : Cause) : ModeCtl :=
  { m with latch := true, causes := addCause m.causes c, first := if m.latch then m.first else some c }

/-- An injection is requested, and the repetition timer starts when the raise set the latch (R152). -/
def Part.requestBroadcast (p : Part) (latched : Bool) : Part :=
  p.modRing (fun r =>
    { r with bcastPending := true
             bcastTimer := if latched then some (addTicks p.now p.cycleTicks) else r.bcastTimer })

/-- Every permit becomes HOLD (R90). -/
def Ev.holdAllPermits (e : Ev) : Ev := allZones.foldl (fun e z => e.setPermit z .hold) e

/-- One raised cause takes effect outside CONFIG (R131). -/
def Ev.applyRaise (e : Ev) (r : Raise) : Ev :=
  if e.p.mode = .config then e
  else
    let latched := !e.p.mc.latch
    let running := e.p.mode.mayRelease
    let e := e.mod (fun p => (p.modMode (fun m => m.latchCause r.cause)).requestBroadcast latched)
    let e := (e.holdAllPermits.unwind.removeRequests (fun _ => true)).removeRoutes (fun x => x.phase == .set)
    let e := e.record e.p.now none none (.holdAll r.cause latched r.entry)
    if running then e.changeMode .stopped else e

/-- The causes raised so far take effect in the order they were raised. -/
def Ev.applyRaises (e : Ev) : Ev := e.raised.foldl Ev.applyRaise { e with raised := [] }

/-! ## The end of an event (R26, R68, R131, R183) -/

/-- What follows the last edge of a frame, or the body of any other event: its dispatches are recorded and its causes take
effect. -/
def Ev.settle (e : Ev) : Ev := e.recordDispatches.applyRaises

/-- The end of an event: the Route Setter examines its queue if it was woken, and the health records follow. -/
def Ev.close (e : Ev) : Part := e.examineQueue.queueLate.p

/-- An event that has nothing between its causes and its examination. -/
def Ev.finish (e : Ev) : Part := e.settle.close

/-! ## Answers of requests -/

/-- What a request does: the event as its effects leave it, the result, and the data as a function of the part after the
event, since a response reports the state after the request (R163). -/
structure Answer where
  ev : Ev
  result : Result
  data : Part → List Byte

/-- A refusal that changes nothing. -/
def refuse (p : Part) (r : Result) (data : List Byte := []) : Answer :=
  { ev := .start p, result := r, data := fun _ => data }

/-- BAD_VALUE with the number of the field (R165, 11.3). -/
def badValue (p : Part) (n : Nat) : Answer := refuse p .badValue [BitVec.ofNat 8 n]

/-- BAD_MODE with the current mode (11.3). -/
def badMode (p : Part) : Answer := refuse p .badMode [p.mode.code]

/-- A success whose data are read from the part after the event. -/
def succeed (e : Ev) (data : Part → List Byte := fun _ => []) : Answer := { ev := e, result := .success, data := data }

/-! ## Conditions (R133 to R137) -/

/-- The lowest loaded e-stop entry whose memory reads active (R133). -/
def Part.activeEstop (p : Part) : Option EntryId :=
  allEntries.find? (fun i => p.store.estops[i].isSome && p.mc.estopMem[i] == some true)

/-- The lowest zone whose device fault latch is set (R102). -/
def Part.latchedDevice (p : Part) : Option ZoneId := allZones.find? (fun z => (p.device z).latch)

/-- What a condition reports when it is present: the e-stop entry or the zone of the device, FFh where neither applies
(11.3). -/
def Part.condition (p : Part) : Condition → Option Byte
  | .estopActive => p.activeEstop.map finByte
  | .controllerSilent => if p.ring.silent then some 0xFF else none
  | .fieldLinkDown => if p.ring.linkDown then some 0xFF else none
  | .supplyWarning => if p.lines.supplyWarn then some 0xFF else none
  | .deviceLatch => p.latchedDevice.map finByte
  | .maintKey => if p.lines.maintKey then some 0xFF else none

/-- The conditions in the order of check 4 of R137. -/
def allConditions : List Condition :=
  [.estopActive, .controllerSilent, .fieldLinkDown, .supplyWarning, .deviceLatch, .maintKey]

/-- The data of CONDITION_PRESENT for the first of these conditions that is present. -/
def Part.firstCondition (p : Part) (cs : List Condition) : Option (List Byte) :=
  cs.findSome? (fun c => (p.condition c).map (fun b => [BitVec.ofNat 8 c.number, b]))

/-! ## Settle tests (R128, R137) -/

/-- The zone fails the settle test of R128. -/
def Part.unsettled (p : Part) (z : ZoneId) : Bool :=
  let st := (p.zone z).state
  st == .moving || st == .releasing ||
    allTrains.any (fun t =>
      (p.train t).head == some z &&
        ((p.train t).state == .lost || ((p.train t).state == .present && st != .held)))

/-- The lowest zone in one of these states. -/
def Part.lowestZone (p : Part) (states : List ZoneState) : Option ZoneId :=
  allZones.find? (fun z => states.contains (p.zone z).state)

/-! ## SET_MODE (R127, R128) -/

/-- A zone on entering CONFIG, its state, occupant and epoch apart (R20, R87). -/
def ZoneDyn.disarm (d : ZoneDyn) : ZoneDyn :=
  { d with entryTime := none, trap := .none, speed := none, deadline := none, remainder := none, pauseMark := false
           reason := none, trapExpiry := none, transitExpiry := none, releaseTimer := none, flank := 0 }

/-- A train on entering CONFIG (R23). -/
def TrainRec.disarm (r : TrainRec) : TrainRec :=
  { r with state := .absent, head := none, tail := none, reserved := none, lastSpeed := none }

/-- A switch on entering CONFIG: its in-service flag is kept (R63). -/
def SwitchDyn.disarm (d : SwitchDyn) : SwitchDyn := { SwitchDyn.reset with inService := d.inService }

/-- Entering CONFIG (R128 and the CONFIG columns of R20, R23, R63, R91, R108, R124). -/
def Ev.enterConfig (e : Ev) : Ev :=
  let e := allZones.foldl (fun e z => (e.setZone z .unarmed none).modZone z ZoneDyn.disarm) e
  let e := allTrains.foldl (fun e t => e.modTrain t TrainRec.disarm) e
  let e := allSwitches.foldl (fun e i => e.mod (fun p => p.modSwitch i SwitchDyn.disarm)) e
  let e := e.mod (fun p =>
    { p.modMgmt (fun m => { m with signature := none }) with
      rs := { p.rs with setting := none, requests := [], stack := [], routes := [], timer := none }
      devices := Vector.replicate 32 .reset, dsp := .reset })
  e.clearLatch.changeMode .config

/-- Leaving RUN_AUTO for RUN_MANUAL removes the AUTO_ENTRY requests that are not being set (R65). -/
def Ev.dropAutoEntry (e : Ev) : Ev :=
  let busy := e.p.rs.setting.map Setting.zone
  e.removeRequests (fun q => q.origin == .autoEntry && busy != some q.zone)

/-- SET_MODE to a running mode (R126, R127). -/
def Part.setRunning (p : Part) (m : Mode) : Answer :=
  match p.mode, m with
  | .runAuto, .runManual => succeed ((Ev.start p).dropAutoEntry.changeMode .runManual)
  | .runManual, .runAuto => succeed ((Ev.start p).changeMode .runAuto)
  | _, _ => badMode p

/-- SET_MODE(MAINT) (R127). -/
def Part.setMaint (p : Part) : Answer :=
  if p.mode ≠ .stopped then badMode p
  else if !p.lines.maintKey then refuse p .noKey
  else
    match p.firstCondition (allConditions.filter (fun c => c != .maintKey)) with
    | some data => refuse p .conditionPresent data
    | none => succeed ((Ev.start p).clearLatch.changeMode .maint)

/-- SET_MODE(CONFIG) (R127, R128). -/
def Part.setConfig (p : Part) : Answer :=
  if p.mode ≠ .stopped then badMode p
  else
    match allZones.find? p.unsettled with
    | some z => refuse p .notSettled [finByte z]
    | none => succeed (Ev.start p).enterConfig

/-- SET_MODE with its mode byte (R127). -/
def Part.setMode (p : Part) (b : Byte) : Answer :=
  match Mode.ofCode b with
  | none | some .stopped => badValue p 1
  | some m =>
    if m = p.mode then succeed (.start p)
    else
      match m with
      | .maint => p.setMaint
      | .config => p.setConfig
      | _ => p.setRunning m

/-! ## RESTORE and STOP (R136, R137) -/

/-- RESTORE with its target byte (R137). -/
def Part.restore (p : Part) (b : Byte) : Answer :=
  if 1 < b.toNat then badValue p 1
  else if p.mode ≠ .stopped then badMode p
  else
    match p.lowestZone [.fault], p.lowestZone [.moving, .releasing], p.firstCondition allConditions with
    | some z, _, _ => refuse p .faultPresent [finByte z]
    | none, some z, _ => refuse p .notSettled [finByte z]
    | none, none, some data => refuse p .conditionPresent data
    | none, none, none => succeed ((Ev.start p).clearLatch.changeMode (if b = 0 then .runAuto else .runManual))

/-- STOP (R136). -/
def Part.stop (p : Part) : Answer :=
  if p.mode = .config then badMode p else succeed ((Ev.start p).raise .stopRequest)

/-! ## RECONCILE (R84, R138 to R140) -/

/-- A claim names zone `z`. -/
def Claim.names (z : ZoneId) : Claim → Bool
  | .reserve r => r == z
  | .flank f => f == z
  | .switch _ _ => false

/-- An active route touches zone `z` (R80). -/
def ActiveRoute.touches (r : ActiveRoute) (z : ZoneId) : Bool :=
  r.zone == z || r.succ == z || r.locks.any (Claim.names z)

/-- The route being set touches zone `z`, by its requesting zone or by any of its claims (R84). -/
def Part.settingTouches (p : Part) (z : ZoneId) : Bool :=
  match p.rs.setting with
  | none => false
  | some s =>
    s.zone == z || p.rs.stack.any (Claim.names z) ||
      (match p.routeRec s.zone s.branch with
        | none => false
        | some r => r.claims.any (Claim.names z))

/-- The route effects of a RECONCILE of zone `z` (R84). -/
def Ev.reconcileRoutes (e : Ev) (z : ZoneId) : Ev :=
  let touches := e.p.settingTouches z
  let e := (e.cancelRoutes (fun r => r.touches z)).removeRequests (fun q => q.zone == z)
  if touches then e.abortSetting else e

/-- Every other FAULT zone that names train `x` loses its occupant (R139, R140).  A zone that is still RESERVED for `x` by an
override's route that a PLACE elsewhere does not touch keeps it (DESIGN CHOICE, assumption log 26). -/
def Ev.forgetTrain (e : Ev) (z : ZoneId) (x : TrainId) : Ev :=
  allZones.foldl (fun e w =>
    if w ≠ z ∧ (e.p.zone w).occupant = some x ∧ (e.p.zone w).state = .fault then e.setZone w .fault none else e) e

/-- The data of a successful RECONCILE: the zone's state and epoch (R138). -/
def reconcileData (z : ZoneId) (p : Part) : List Byte := (p.zone z).state.code :: be16 (p.zone z).epoch

/-- The state preconditions of PLACE (R139). -/
def Part.mayPlace (p : Part) (z : ZoneId) (x : TrainId) : Bool :=
  (p.reservable z || ((p.zone z).state == .fault && ((p.zone z).occupant.isNone || (p.zone z).occupant == some x))) &&
    (match (p.train x).state with
      | .absent | .lost => true
      | .present => (p.train x).head == some z) &&
    (p.train x).tail.isNone

/-- PLACE (R139).  The reserved zone of the train becomes absent, also where a route that the RECONCILE leaves SET has reserved
one; the FAULT zone that route leaves then names no train and keeps its permit OPEN, against R89 (DESIGN CHOICE, assumption
log 26). -/
def Ev.place (e : Ev) (z : ZoneId) (x : TrainId) : Ev :=
  let e := (e.reconcileRoutes z).setZone z .held (some x)
  let e := e.modZone z (fun d =>
    { d with reason := none, entryTime := none, speed := none, deadline := none, remainder := none, trap := .none })
  let e := e.modTrain x (fun r =>
    { r with state := .present, head := some z, tail := none, reserved := none, lastSpeed := none })
  e.forgetTrain z x

/-- The state precondition of REMOVE; the train it removes (R140). -/
def Part.mayRemove (p : Part) (z : ZoneId) : Option TrainId :=
  match (p.zone z).state, (p.zone z).occupant with
  | .held, some x | .fault, some x =>
    if (p.train x).head = some z ∧ (p.train x).tail = none then some x else none
  | _, _ => none

/-- Zone `z` becomes FREE with its FREE field values (R140). -/
def Ev.freeZone (e : Ev) (z : ZoneId) : Ev := (e.setZone z .free none).modZone z ZoneDyn.cleared

/-- REMOVE (R140). -/
def Ev.remove (e : Ev) (z : ZoneId) (x : TrainId) : Ev :=
  let e := ((e.reconcileRoutes z).freeZone z).modTrain x (fun r =>
    { r with state := .absent, head := none, tail := none, reserved := none })
  e.forgetTrain z x

/-- The state precondition of CLEAR (R140). -/
def Part.mayClear (p : Part) (z : ZoneId) : Bool :=
  (p.zone z).state == .fault &&
    (match (p.zone z).occupant with
      | none => true
      | some x => (p.train x).reserved == some z && (p.train x).head != some z)

/-- CLEAR (R140). -/
def Ev.clear (e : Ev) (z : ZoneId) : Ev :=
  let x := (e.p.zone z).occupant
  let e := (e.reconcileRoutes z).freeZone z
  match x with
  | none => e
  | some x => e.modTrain x (fun r => { r with reserved := none })

/-- The first track sensor of the zone that reads active, in the order TRAP_A, TRAP_B, STOP, CLEAR (R140). -/
def Part.activeSensor (p : Part) (rec : ZoneRec) : Option SensorRef :=
  ([rec.trapA] ++ rec.trapB.toList ++ [rec.stop, rec.clear]).find? p.level

/-- BAD_STATE of a RECONCILE: the zone state (11.3). -/
def badZoneState (p : Part) (z : ZoneId) : Answer := refuse p .badState [(p.zone z).state.code]

/-- REMOVE of zone `z` with its preconditions (R138, R140). -/
def Part.reconcileRemove (p : Part) (z : ZoneId) : Answer :=
  match p.zoneRec z, p.mayRemove z with
  | some rec, some x =>
    match p.activeSensor rec with
    | some r => refuse p .sensorDisagrees (sensorBytes r)
    | none => succeed ((Ev.start p).remove z x) (reconcileData z)
  | _, _ => badZoneState p z

/-- CLEAR of zone `z` with its preconditions (R138, R140). -/
def Part.reconcileClear (p : Part) (z : ZoneId) : Answer :=
  match p.zoneRec z, p.mayClear z with
  | some rec, true =>
    match p.activeSensor rec with
    | some r => refuse p .sensorDisagrees (sensorBytes r)
    | none => succeed ((Ev.start p).clear z) (reconcileData z)
  | _, _ => badZoneState p z

/-- PLACE of train `x` in zone `z` with its preconditions (R138, R139). -/
def Part.reconcilePlace (p : Part) (z : ZoneId) (x : TrainId) : Answer :=
  match p.zoneRec z, p.mayPlace z x with
  | some rec, true =>
    if p.level rec.stop then succeed ((Ev.start p).place z x) (reconcileData z)
    else refuse p .sensorDisagrees (sensorBytes rec.stop)
  | _, _ => badZoneState p z

/-- RECONCILE with its zone, action and train bytes; the train is read for PLACE only (R138, R189). -/
def Part.reconcile (p : Part) (zb action tb : Byte) : Answer :=
  if p.mode ≠ .stopped ∧ p.mode ≠ .maint then badMode p
  else
    match zoneOf zb with
    | none => badValue p 1
    | some z =>
      match action.toNat with
      | 0 =>
        match trainOf tb with
        | none => badValue p 3
        | some x => p.reconcilePlace z x
      | 1 => p.reconcileRemove z
      | 2 => p.reconcileClear z
      | _ => badValue p 2

/-! ## OVERRIDE_RELEASE (R84, R141 to R143) -/

/-- The data of an OVERRIDE_RELEASE: the budget after the request (R141). -/
def budgetData (p : Part) : List Byte := [BitVec.ofNat 8 p.mc.budget.val]

/-- A failed attempt costs one of the budget (R143). -/
def Ev.spendBudget (e : Ev) : Ev :=
  e.mod (fun p => p.modMode (fun m =>
    { m with budget := ⟨m.budget.val - 1, Nat.lt_of_le_of_lt (Nat.sub_le _ _) m.budget.isLt⟩ }))

/-- The request immediately preceding was a QUERY_ZONE of `z` answered with success (check 4 of R141, R166). -/
def Part.preceded (p : Part) (z : ZoneId) : Bool :=
  match p.mgmt.precedence with
  | none => false
  | some r => r.code == 0x0B && r.zone == some (finByte z) && r.success

/-- The branch of an override: the branch rule, testing only the successor zones (R141). -/
def Part.overrideBranch (p : Part) (z : ZoneId) (rec : ZoneRec) (x : TrainId) : Branch :=
  if rec.succB.isNone then .a
  else
    match rec.rule with
    | .fixedA => .a
    | .alternate => (p.zone z).lastBranch.other
    | .divert => if (p.train x).divert then .b else .a
    | .firstFree => if p.reservable rec.succA then .a else .b

/-- The state test of an override: the train, the branch and the successor it may take (check 6 of R141). -/
def Part.overrideTest (p : Part) (z : ZoneId) (rec : ZoneRec) : Option (TrainId × Branch × ZoneId) :=
  match (p.zone z).state, (p.zone z).occupant with
  | .held, some x | .fault, some x =>
    let br := p.overrideBranch z rec x
    match rec.succ br with
    | none => none
    | some s =>
      if (p.train x).head = some z ∧ p.routesOut z = [] ∧ p.reservable s then some (x, br, s) else none
  | _, _ => none

/-- A successful override (R142). -/
def Ev.override (e : Ev) (z : ZoneId) (rec : ZoneRec) (x : TrainId) (br : Branch) (s : ZoneId) : Ev :=
  let st := (e.p.zone z).state
  let e := (e.reserve s x).openRoute { zone := z, train := x, branch := br, succ := s, locks := [], phase := .set }
  ((e.record e.p.now (some z) (some x) (.routeSet br)).woken).releaseIfOpen z rec x st

/-- Once checks 4 and 5 have passed, the request for `z` is removed and a setting for `z` is aborted (R84, R141). -/
def Ev.overrideClears (e : Ev) (z : ZoneId) : Ev :=
  let e := e.removeRequests (fun q => q.zone == z)
  if e.p.isSetting z then e.abortSetting else e

/-- OVERRIDE_RELEASE of zone `z` quoting an epoch, from check 3 on (R141). -/
def Part.overrideZone (p : Part) (z : ZoneId) (epoch : BitVec 16) : Answer :=
  if p.mc.budget.val = 0 then { ev := .start p, result := .overrideLocked, data := budgetData }
  else if !p.preceded z then { ev := (Ev.start p).spendBudget, result := .notPreceded, data := budgetData }
  else if (p.zone z).epoch ≠ epoch then { ev := (Ev.start p).spendBudget, result := .staleEpoch, data := budgetData }
  else
    let e := (Ev.start p).overrideClears z
    match e.p.zoneRec z with
    | none => { ev := e, result := .badState, data := budgetData }
    | some rec =>
      match e.p.overrideTest z rec with
      | none => { ev := e, result := .badState, data := budgetData }
      | some (x, br, s) => succeed (e.override z rec x br s) budgetData

/-- OVERRIDE_RELEASE with its zone byte and epoch (R141). -/
def Part.overrideRelease (p : Part) (zb : Byte) (epoch : BitVec 16) : Answer :=
  if p.mode ≠ .maint then badMode p
  else
    match zoneOf zb with
    | none => badValue p 1
    | some z => p.overrideZone z epoch

end Sys2Proof.Machine
end

