-- ==== Sys2Proof/Machine/Arm.lean ====
section
/-! DEFINITION. ARM: the twenty validation checks (R12 to R14), the table signature (R15) and what a successful ARM sets up
(R16 to R19). -/

namespace Sys2Proof.Machine

/-! ## Reading the loaded records in index order -/

/-- The loaded zones in ascending order. -/
def Store.loadedZones (t : Store) : List (ZoneId × ZoneRec) :=
  allZones.filterMap (fun z => t.zones[z].map (fun r => (z, r)))

/-- The loaded routes in ascending order of index. -/
def Store.loadedRoutes (t : Store) : List (RouteId × RouteRec) :=
  allRoutes.filterMap (fun i => t.routes[i].map (fun r => (i, r)))

/-- The loaded switches in ascending order of index. -/
def Store.loadedSwitches (t : Store) : List (SwitchId × SwitchRec) :=
  allSwitches.filterMap (fun i => t.switches[i].map (fun r => (i, r)))

/-- The loaded placement entries in ascending order of index. -/
def Store.loadedPlacement (t : Store) : List (EntryId × Placement) :=
  allEntries.filterMap (fun i => t.placement[i].map (fun r => (i, r)))

/-- The loaded e-stop entries in ascending order of index. -/
def Store.loadedEstops (t : Store) : List (EntryId × SensorRef) :=
  allEntries.filterMap (fun i => t.estops[i].map (fun r => (i, r)))

/-- The zone slot is loaded. -/
def Store.zoneLoaded (t : Store) (z : ZoneId) : Bool := t.zones[z].isSome

/-- The class of a node is one of these. -/
def Store.classIn (t : Store) (n : NodeId) (cs : List NodeClass) : Bool :=
  match t.nodes[n] with
  | none => false
  | some c => cs.contains c

/-- The classes that supply track sensors, ready inputs and e-stops (check 5). -/
def inputClasses : List NodeClass := [.sensor, .hold, .stationIo]

/-- The track sensors of a zone (check 5, check 20). -/
def ZoneRec.sensors (r : ZoneRec) : List SensorRef := [r.trapA] ++ r.trapB.toList ++ [r.stop, r.clear]

/-! ## Records at which a check fails -/

/-- A record named by table code and index byte (R12). -/
structure RecordName where
  table : Byte
  index : Byte
  deriving DecidableEq, Repr

/-- Zone `z` as the record reported. -/
def nameZone (z : ZoneId) : RecordName := { table := 2, index := finByte z }

/-- Route `i` as the record reported. -/
def nameRoute (i : RouteId) : RecordName := { table := 3, index := finByte i }

/-- Switch `i` as the record reported. -/
def nameSwitch (i : SwitchId) : RecordName := { table := 4, index := finByte i }

/-- Placement entry `i` as the record reported. -/
def namePlacement (i : EntryId) : RecordName := { table := 5, index := finByte i }

/-- E-stop entry `i` as the record reported. -/
def nameEstop (i : EntryId) : RecordName := { table := 6, index := finByte i }

/-- The first zone that fails a check. -/
def Store.badZone (t : Store) (bad : ZoneId → ZoneRec → Bool) : Option RecordName :=
  (t.loadedZones.find? (fun x => bad x.1 x.2)).map (fun x => nameZone x.1)

/-- The first route that fails a check. -/
def Store.badRoute (t : Store) (bad : RouteId → RouteRec → Bool) : Option RecordName :=
  (t.loadedRoutes.find? (fun x => bad x.1 x.2)).map (fun x => nameRoute x.1)

/-- The first switch that fails a check. -/
def Store.badSwitch (t : Store) (bad : SwitchId → SwitchRec → Bool) : Option RecordName :=
  (t.loadedSwitches.find? (fun x => bad x.1 x.2)).map (fun x => nameSwitch x.1)

/-- The first placement entry that fails a check. -/
def Store.badPlacement (t : Store) (bad : EntryId → Placement → Bool) : Option RecordName :=
  (t.loadedPlacement.find? (fun x => bad x.1 x.2)).map (fun x => namePlacement x.1)

/-! ## Checks 1 to 9 (R12) -/

/-- NO_ZONES. -/
def Store.check1 (t : Store) : Option RecordName :=
  if t.loadedZones.isEmpty then some { table := 2, index := 0 } else none

/-- SUCCESSOR_UNLOADED. -/
def Store.check2 (t : Store) : Option RecordName :=
  t.badZone (fun _ r => !t.zoneLoaded r.succA || r.succB.any (fun s => !t.zoneLoaded s))

/-- HOLD_NODE_CLASS. -/
def Store.check3 (t : Store) : Option RecordName := t.badZone (fun _ r => !t.classIn r.holdNode [.hold])

/-- HOLD_OUTPUT_REUSED, reported at the zone of higher index. -/
def Store.check4 (t : Store) : Option RecordName :=
  t.badZone (fun z r => t.loadedZones.any (fun x =>
    decide (x.1 < z) && x.2.holdNode == r.holdNode && x.2.holdCh == r.holdCh))

/-- SENSOR_NODE_CLASS, the e-stop entries after all zones. -/
def Store.check5 (t : Store) : Option RecordName :=
  match t.badZone (fun _ r => (r.sensors ++ r.ready).any (fun s => !t.classIn s.node inputClasses)) with
  | some n => some n
  | none => (t.loadedEstops.find? (fun x => !t.classIn x.2.node inputClasses)).map (fun x => nameEstop x.1)

/-- Every reference in the scan order of check 6, with the record that holds it. -/
def Store.references (t : Store) : List (SensorRef × RecordName) :=
  t.loadedZones.flatMap (fun x =>
    ((x.2.roles.map Prod.snd) ++ x.2.ready).map (fun s => (s, nameZone x.1))) ++
  t.loadedSwitches.flatMap (fun x =>
    [({ node := x.2.node, ch := x.2.lockA }, nameSwitch x.1), ({ node := x.2.node, ch := x.2.lockB }, nameSwitch x.1)]) ++
  t.loadedEstops.map (fun x => (x.2, nameEstop x.1))

/-- The first reference that stands among those before it. -/
def firstReused : List SensorRef → List (SensorRef × RecordName) → Option RecordName
  | _, [] => none
  | seen, (s, n) :: rest => if seen.contains s then some n else firstReused (s :: seen) rest

/-- INPUT_REUSED. -/
def Store.check6 (t : Store) : Option RecordName := firstReused [] t.references

/-- TRAP_NODES. -/
def Store.check7 (t : Store) : Option RecordName :=
  t.badZone (fun _ r => r.trapB.any (fun b => b.node != r.trapA.node))

/-- The CLEAR of a zone is not on the TRAP_A node of this successor (check 8). -/
def Store.clearAway (t : Store) (r : ZoneRec) (s : ZoneId) : Bool :=
  match t.zones[s] with
  | none => true
  | some sr => r.clear.node != sr.trapA.node

/-- CLEAR_NODE. -/
def Store.check8 (t : Store) : Option RecordName :=
  t.badZone (fun _ r => t.clearAway r r.succA || r.succB.any (t.clearAway r))

/-- SWITCH_NODE. -/
def Store.check9 (t : Store) : Option RecordName :=
  t.badSwitch (fun i r => !t.classIn r.node [.switch] ||
    t.loadedSwitches.any (fun x => decide (x.1 < i) && x.2.node == r.node))

/-! ## Checks 10 to 16 (R13) -/

/-- The successor of a route, by its zone and branch; absent when the zone is unloaded or has no such branch. -/
def Store.routeSucc (t : Store) (r : RouteRec) : Option ZoneId :=
  match t.zones[r.zone] with
  | none => none
  | some z => z.succ r.branch

/-- ROUTE_ORPHAN. -/
def Store.check10 (t : Store) : Option RecordName := t.badRoute (fun _ r => (t.routeSucc r).isNone)

/-- ROUTE_DUPLICATE, reported at the entry of higher index. -/
def Store.check11 (t : Store) : Option RecordName :=
  t.badRoute (fun i r => t.loadedRoutes.any (fun x =>
    decide (x.1 < i) && x.2.zone == r.zone && x.2.branch == r.branch))

/-- A route for this zone and branch is loaded. -/
def Store.hasRouteFor (t : Store) (z : ZoneId) (br : Branch) : Bool :=
  t.loadedRoutes.any (fun x => x.2.zone == z && x.2.branch == br)

/-- ROUTE_MISSING. -/
def Store.check12 (t : Store) : Option RecordName :=
  t.badZone (fun z r => !t.hasRouteFor z .a || (r.succB.isSome && !t.hasRouteFor z .b))

/-- CLAIM_COUNT. -/
def Store.check13 (t : Store) : Option RecordName := t.badRoute (fun _ r => r.claims.isEmpty)

/-- A claim is a RESERVE. -/
def Claim.isReserve : Claim → Bool
  | .reserve _ => true
  | .flank _ | .switch _ _ => false

/-- FIRST_CLAIM. -/
def Store.check14 (t : Store) : Option RecordName :=
  t.badRoute (fun _ r =>
    match r.claims with
    | .reserve s :: rest => t.routeSucc r != some s || rest.any Claim.isReserve
    | _ => true)

/-- Two claims name the same zone or the same switch node. -/
def Claim.sameTarget : Claim → Claim → Bool
  | .switch n _, .switch m _ => n == m
  | .switch _ _, _ => false
  | .reserve z, c | .flank z, c => c.names z

/-- Two claims of the list name the same target. -/
def claimsRepeat : List Claim → Bool
  | [] => false
  | c :: cs => cs.any c.sameTarget || claimsRepeat cs

/-- A FLANK claim on an unloaded zone, the route's own zone or its successor. -/
def Store.badFlank (t : Store) (r : RouteRec) : Claim → Bool
  | .flank f => !t.zoneLoaded f || f == r.zone || t.routeSucc r == some f
  | .reserve _ | .switch _ _ => false

/-- CLAIM_TARGET. -/
def Store.check15 (t : Store) : Option RecordName :=
  t.badRoute (fun _ r => r.claims.any (t.badFlank r) || claimsRepeat r.claims)

/-- SWITCH_CLAIM_NODE. -/
def Store.check16 (t : Store) : Option RecordName :=
  t.badRoute (fun _ r => r.claims.any (fun c =>
    match c with
    | .switch n _ => !t.loadedSwitches.any (fun x => x.2.node == n)
    | .reserve _ | .flank _ => false))

/-! ## Checks 17 to 20 (R14) -/

/-- PLACEMENT_DUPLICATE, reported at the entry of higher index. -/
def Store.check17 (t : Store) : Option RecordName :=
  t.badPlacement (fun i r => t.loadedPlacement.any (fun x =>
    decide (x.1 < i) && (x.2.train == r.train || x.2.zone == r.zone)))

/-- PLACEMENT_ZONE. -/
def Store.check18 (t : Store) : Option RecordName :=
  t.badPlacement (fun _ r =>
    match t.zones[r.zone] with
    | none => true
    | some z => !z.inService)

/-- The tables refer to node `n` (R14). -/
def Store.referenced (t : Store) (n : NodeId) : Bool :=
  t.loadedZones.any (fun x => x.2.holdNode == n || (x.2.sensors ++ x.2.ready).any (fun s => s.node == n)) ||
    t.loadedSwitches.any (fun x => x.2.node == n) || t.loadedEstops.any (fun x => x.2.node == n)

/-- NODE_SILENT. -/
def Part.check19 (p : Part) : Option RecordName :=
  (allNodes.find? (fun n => p.store.referenced n && p.cls.levels[n].isNone)).map
    (fun n => { table := 1, index := nodeByte n })

/-- A zone is named by a loaded placement entry. -/
def Store.placedTrain (t : Store) (z : ZoneId) : Option TrainId :=
  (t.loadedPlacement.find? (fun x => x.2.zone == z)).map (fun x => x.2.train)

/-- The STOP input of an entry's zone is inactive (check 20). -/
def Part.stopInactive (p : Part) (r : Placement) : Bool :=
  match p.zoneRec r.zone with
  | none => true
  | some z => !p.level z.stop

/-- PLACEMENT_SENSORS, the entries before the zones. -/
def Part.check20 (p : Part) : Option RecordName :=
  match p.store.badPlacement (fun _ r => p.stopInactive r) with
  | some n => some n
  | none => p.store.badZone (fun z r => (p.store.placedTrain z).isNone && r.sensors.any p.level)

/-- The twenty checks in ascending order of code. -/
def Part.checks (p : Part) : List (Nat × Option RecordName) :=
  let t := p.store
  [(1, t.check1), (2, t.check2), (3, t.check3), (4, t.check4), (5, t.check5), (6, t.check6), (7, t.check7),
    (8, t.check8), (9, t.check9), (10, t.check10), (11, t.check11), (12, t.check12), (13, t.check13), (14, t.check14),
    (15, t.check15), (16, t.check16), (17, t.check17), (18, t.check18), (19, p.check19), (20, p.check20)]

/-- The first check that fails, with the record reported (R12). -/
def Part.validate (p : Part) : Option (Nat × RecordName) :=
  p.checks.findSome? (fun c => c.2.map (fun n => (c.1, n)))

/-! ## What ARM sets up (R15 to R19) -/

/-- The state and occupant that ARM gives a zone (R17). -/
def Part.armedZone (p : Part) (z : ZoneId) (rec : ZoneRec) : ZoneState × Option TrainId :=
  match p.store.placedTrain z with
  | some x => (.held, some x)
  | none => if rec.inService then (.free, none) else (.outOfService, none)

/-- A zone's other fields at ARM: as on entering CONFIG, with the last branch B (R17). -/
def ZoneDyn.arm (d : ZoneDyn) : ZoneDyn := { d.disarm with lastBranch := .b }

/-- ARM builds zone `z` (R17); its epoch rises by 1 as it leaves UNARMED (R22). -/
def Ev.armZone (e : Ev) (z : ZoneId) : Ev :=
  match e.p.zoneRec z with
  | none => e
  | some rec =>
    let target := e.p.armedZone z rec
    (e.setZone z target.1 target.2).modZone z ZoneDyn.arm

/-- A train record at ARM: placed or absent, its divert mark following its service-due flag (R18). -/
def TrainRec.arm (r : TrainRec) (zone : Option ZoneId) : TrainRec :=
  { state := if zone.isSome then .present else .absent, head := zone, tail := none, reserved := none
    lastSpeed := none, divert := r.serviceDue, laps := r.laps, serviceDue := r.serviceDue }

/-- The placement zone of a train. -/
def Store.placedZone (t : Store) (x : TrainId) : Option ZoneId :=
  (t.loadedPlacement.find? (fun e => e.2.train == x)).map (fun e => e.2.zone)

/-- A switch at ARM (R8, R19). -/
def SwitchDyn.arm (rec : Option SwitchRec) : SwitchDyn :=
  { SwitchDyn.reset with inService := (rec.map SwitchRec.inService).getD false }

/-- The e-stop memory of a loaded entry becomes the level of its input (R133). -/
def Part.armEstop (p : Part) (i : EntryId) : Part :=
  match p.store.estops[i] with
  | none => p
  | some r => p.modMode (fun m => { m with estopMem := m.estopMem.set i (some (p.level r)) })

/-- The effects of a successful ARM (R15 to R19, R133). -/
def Ev.arm (e : Ev) : Ev :=
  let e := allZones.foldl Ev.armZone e
  let e := allTrains.foldl (fun e x => e.modTrain x (fun r => r.arm (e.p.store.placedZone x))) e
  let e := allSwitches.foldl (fun e i => e.mod (fun p => p.modSwitch i (fun _ => .arm p.store.switches[i]))) e
  let e := e.mod (fun p =>
    { p.modMgmt (fun m => { m with signature := some p.store.signature }) with
      rs := { p.rs with setting := none, requests := [], stack := [], routes := [], timer := none }
      devices := Vector.replicate 32 .reset, dsp := .reset
      cls := { p.cls with lastCounter := Vector.replicate 61 none } })
  let e := e.mod (fun p => allEntries.foldl Part.armEstop p)
  e.changeMode .stopped

/-- ARM (R12). -/
def Part.arm (p : Part) : Answer :=
  if p.mode ≠ .config then badMode p
  else if p.mgmt.loadTainted then refuse p .tainted
  else if !p.ring.synced then refuse p .notSynchronized
  else
    match p.validate with
    | some (c, n) => refuse p .validationFailed [BitVec.ofNat 8 c, n.table, n.index]
    | none => succeed (Ev.start p).arm

end Sys2Proof.Machine
end

