-- ==== Sys2Proof/Machine/Flags.lean ====
section
/-! DEFINITION. The seven status flags (R170, R171), the event reporting settings (R177), and the sets that STATUS
reports. -/

namespace Sys2Proof.Machine

/-! ## The status flags (R170) -/

/-- The condition of HEALTH_ALERT: an over-threshold flag or a service-due flag is set (R170). -/
def Part.healthCondition (p : Part) : Bool :=
  allNodes.any (fun n => p.cnt.nodes[n].alerted) || allZones.any (fun z => p.cnt.devices[z].alerted) ||
    allTrains.any (fun t => (p.train t).serviceDue)

/-- The numbers of the flags that are set, the four sticky ones and the three that follow state (R170, 11.4). -/
def Part.flagNumbers (p : Part) : List Nat :=
  [(p.mgmt.frameError, 0), (p.mgmt.loadTainted, 1), (p.mgmt.evqOverflow, 2), (p.mgmt.healthAlert, 3),
    (p.mc.budget.val == 0, 4), (p.lines.supplyWarn, 5), (p.mc.latch, 6)].filterMap (fun x => if x.1 then some x.2 else none)

/-- The seven status flags as a set (11.1). -/
def Part.statusFlags (p : Part) : Byte := setBits 8 p.flagNumbers

/-- CLEAR_FLAGS with its set of flags: HEALTH_ALERT stays while its condition is present (R171). -/
def Part.clearStatus (p : Part) (flags : Byte) : Part :=
  p.modMgmt (fun m =>
    { m with frameError := m.frameError && !flags.getLsbD 0
             evqOverflow := m.evqOverflow && !flags.getLsbD 2
             healthAlert := if flags.getLsbD 3 then p.healthCondition else m.healthAlert })

/-! ## Sets reported by STATUS (R169) -/

/-- The cause set (11.1, 11.4). -/
def ModeCtl.causeSet (m : ModeCtl) : BitVec 16 := setBits 16 (m.causes.map Cause.number)

/-- The set of conditions present (R169). -/
def Part.conditionSet (p : Part) : Byte :=
  setBits 8 ((allConditions.filter (fun c => (p.condition c).isSome)).map Condition.number)

/-! ## Reporting settings (R177) -/

/-- The batch size and class mask as bytes. -/
def Reporting.bytes (r : Reporting) : List Byte := [BitVec.ofNat 8 r.batch.toNat, r.mask.code]

/-- A setting that takes effect: batch size 0 empties the queue (R176, R177). -/
def Mgmt.applyReporting (m : Mgmt) (r : Reporting) : Mgmt :=
  { m with reporting := r, setting := none, events := if r.batch = .off then [] else m.events }

/-- The pending setting takes effect at an intact CYCLE_START (R177). -/
def Mgmt.applySetting (m : Mgmt) : Mgmt :=
  match m.setting with
  | none => m
  | some r => m.applyReporting r

/-- EVENT_CTRL with a batch size that is not allowed turns reporting off at once (R177). -/
def Mgmt.reportingOff (m : Mgmt) : Mgmt :=
  { m with reporting := { m.reporting with batch := .off }, setting := none, events := [] }

end Sys2Proof.Machine
end

