-- ==== Sys2Proof/Machine/Operands.lean ====
section
/-! DEFINITION. The arguments of the requests (11.3, R163, R189): how many bytes each needs, and how an argument byte is
read. -/

namespace Sys2Proof.Machine

/-! ## Request codes (11.3) -/

/-- The requests that have a definition (11.3). -/
inductive Request.Code where
  | identify | status | clearFlags | setMode | arm | restore | stop | tableWrite | tableRead | tablesErase | queryZone
  | queryTrain | overrideRelease | reconcile | setDivert | eventCtrl | countersRead | countersClear | healthRead
  | healthReset | reset
  deriving DecidableEq, Repr

/-- The request of a code; absent when the code has no definition. -/
def requestOf (b : Byte) : Option Request.Code :=
  match b.toNat with
  | 0x01 => some .identify | 0x02 => some .status | 0x03 => some .clearFlags | 0x04 => some .setMode
  | 0x05 => some .arm | 0x06 => some .restore | 0x07 => some .stop | 0x08 => some .tableWrite
  | 0x09 => some .tableRead | 0x0A => some .tablesErase | 0x0B => some .queryZone | 0x0C => some .queryTrain
  | 0x0D => some .overrideRelease | 0x0E => some .reconcile | 0x0F => some .setDivert | 0x10 => some .eventCtrl
  | 0x11 => some .countersRead | 0x12 => some .countersClear | 0x13 => some .healthRead | 0x14 => some .healthReset
  | 0x15 => some .reset
  | _ => none

/-- The bytes of arguments that a request requires (11.3, R163).  A RECONCILE needs its train byte for PLACE only; the
record body of a TABLE_WRITE is tested by condition 3 of R2. -/
def Request.Code.argBytes (c : Request.Code) (args : List Byte) : Nat :=
  match c with
  | .identify | .status | .arm | .stop | .tablesErase | .countersClear | .reset => 0
  | .clearFlags | .setMode | .restore | .queryZone | .queryTrain | .countersRead => 1
  | .tableRead | .setDivert | .eventCtrl | .healthRead | .healthReset => 2
  | .tableWrite | .overrideRelease => 3
  | .reconcile => if byteAt args 1 = 0 then 3 else 2

/-- The payload is too short to hold the arguments of its code (R163). -/
def Request.Code.tooShort (c : Request.Code) (args : List Byte) : Bool := decide (args.length < c.argBytes args)

/-! ## Ports and health items (11.4) -/

/-- The four ports, as COUNTERS_READ names them. -/
inductive Port where
  | cIn | fIn | fOut | cOut
  deriving DecidableEq, Repr

/-- The port of a port byte. -/
def portOf (b : Byte) : Option Port :=
  match b.toNat with
  | 0 => some .cIn | 1 => some .fIn | 2 => some .fOut | 3 => some .cOut
  | _ => none

/-- The items of HEALTH_READ and HEALTH_RESET (R184). -/
inductive HealthItem where
  | node (n : NodeId)
  | device (z : ZoneId)
  | train (t : TrainId)
  deriving DecidableEq, Repr

/-- The item of a kind byte and an index byte, or the number of the field that fails (R184, R189). -/
def healthItemOf (kind index : Byte) : Except Nat HealthItem :=
  match kind.toNat with
  | 0 => (field 2 (nodeOf index)).map .node
  | 1 => (field 2 (zoneOf index)).map .device
  | 2 => (field 2 (trainOf index)).map .train
  | _ => .error 1

/-- The flag of a flag byte: 0 clear, 1 set (11.1, R189). -/
def flagOf (b : Byte) : Option Bool :=
  match b.toNat with
  | 0 => some false | 1 => some true
  | _ => none

end Sys2Proof.Machine
end

