-- ==== Sys2Proof/Machine/Queries.lean ====
section
/-! DEFINITION. The data that requests report: IDENTIFY (R168), STATUS (R169), TABLE_READ (R172), QUERY_ZONE (R174),
QUERY_TRAIN (R175), the frame counters (R180) and the health counts (R184).  Items stand in the order of the owning rule,
each in its encoding of 11.1.  The encoding of an item that may be absent and has no encoding of its own there is a
presence byte and the item, 0 when absent; a count of fewer than 16 bits is one byte (assumption log 9). -/

namespace Sys2Proof.Machine

/-- An optional byte: presence byte, then the byte. -/
def optByte : Option Byte → List Byte
  | none => [0, 0]
  | some b => [1, b]

/-- An optional 16-bit value: presence byte, then 2 bytes (11.3, the table signature). -/
def optWord : Option (BitVec 16) → List Byte
  | none => [0, 0, 0]
  | some v => 1 :: be16 v

/-- IDENTIFY (R168, 11.3). -/
def identifyData (p : Part) : List Byte :=
  [Config.familyCode] ++ be16 Config.partNumber ++
    [Config.revision, p.lines.resetCause.code, p.mode.code, flagByte p.ring.synced] ++ be32 p.now ++
    optWord (if p.mode = .config then none else p.mgmt.signature)

/-- STATUS (R169).  The override budget and the batch size are one byte each (DESIGN CHOICE, assumption log 9). -/
def statusData (p : Part) : List Byte :=
  [p.statusFlags, flagByte !p.mgmt.events.isEmpty, p.mode.code, causeCode p.mc.first] ++ be16 p.mc.causeSet ++
    [BitVec.ofNat 8 p.mc.budget.val, p.conditionSet, (p.condition .estopActive).getD 0xFF,
      (p.condition .deviceLatch).getD 0xFF, flagByte p.mgmt.precedence.isNone] ++ p.mgmt.reporting.bytes ++
    (match p.mgmt.setting with
      | none => [0, 0, 0]
      | some r => 1 :: r.bytes)

/-- The dynamic record of a switch as TABLE_READ appends it (11.6).  The holder count is one byte (assumption log 9). -/
def SwitchDyn.bytes (d : SwitchDyn) : List Byte :=
  [positionCode d.commanded, BitVec.ofNat 8 d.holders,
    (if d.inService then 1 else 0) ||| (if d.lockLost then 2 else 0)]

/-- What TABLE_READ appends to the body of a slot (R172). -/
def Part.dynamicBytes (p : Part) : Slot → List Byte
  | .switch i => if p.store.switches[i].isSome then (p.switch i).bytes else [0, 0, 0]
  | .node _ | .zone _ | .route _ | .placement _ | .estop _ | .params => []

/-- The body of a slot, or bytes of 0 when it is unloaded, with its loaded flag first (R1, R172). -/
def Part.slotBytes (p : Part) (slot : Slot) : List Byte :=
  (match p.store.body slot with
    | none => 0 :: List.replicate slot.bodyLength 0
    | some b => 1 :: b) ++ p.dynamicBytes slot

/-- The tracking items of a zone (R174). -/
def ZoneDyn.queryBytes (d : ZoneDyn) : List Byte :=
  [d.state.code, trainByte d.occupant] ++ be16 d.epoch ++ optTimeBytes d.entryTime ++ [d.trap.code, flagByte d.pauseMark] ++
    speedBytes d.speed ++ optTimeBytes d.deadline ++ optTimeBytes d.remainder ++ [reasonCode d.reason, d.lastBranch.code]

/-- The route setting items of a zone (R174). -/
def Part.routeItems (p : Part) (z : ZoneId) : List Byte :=
  (match p.rs.requests.find? (fun q => q.zone == z) with
    | none => [0, 0]
    | some q => [1, q.origin.code]) ++ [flagByte (p.isSetting z)] ++
  (match p.routesOut z with
    | [] => [0, 0, 0, 0]
    | r :: _ => [1, r.phase.code, r.branch.code, finByte r.succ])

/-- The hold device items of a zone (R174). -/
def DeviceRec.queryBytes (d : DeviceRec) : List Byte :=
  [d.permit.code, holdCode d.forwarded, d.sup.code, flagByte d.latch]

/-- QUERY_ZONE (R174).  An unloaded zone reports its epoch, and every other item absent or at its reset value.  The flank
count is one byte (DESIGN CHOICE, assumption log 9). -/
def zoneData (z : ZoneId) (p : Part) : List Byte :=
  match p.zoneRec z with
  | none =>
    [0, 0, 0] ++ ({ ZoneDyn.reset with epoch := (p.zone z).epoch } : ZoneDyn).queryBytes ++ [0] ++
      [0, 0, 0, 0, 0, 0, 0] ++ DeviceRec.reset.queryBytes
  | some rec =>
    [1, rec.kind.code, flagByte rec.inService] ++ (p.zone z).queryBytes ++ [BitVec.ofNat 8 (p.zone z).flank] ++
      p.routeItems z ++ (p.device z).queryBytes

/-- One route of QUERY_TRAIN (R175). -/
def ActiveRoute.bytes (r : ActiveRoute) : List Byte := [finByte r.zone, finByte r.succ, r.branch.code, r.phase.code]

/-- QUERY_TRAIN (R175): the train record, then its active routes. -/
def trainData (x : TrainId) (p : Part) : List Byte :=
  let r := p.train x
  [r.state.code, zoneByte r.head, zoneByte r.tail, zoneByte r.reserved] ++ speedBytes r.lastSpeed ++
    [flagByte r.divert] ++ be32 r.laps ++ [flagByte r.serviceDue] ++
    (p.rs.routes.filter (fun a => a.train == x)).flatMap ActiveRoute.bytes

/-- The divert mark and service-due flag of a train (R119). -/
def divertData (x : TrainId) (p : Part) : List Byte := [flagByte (p.train x).divert, flagByte (p.train x).serviceDue]

/-- The frame counters of a port, in the order of R179 (R180). -/
def portData (port : Port) (p : Part) : List Byte :=
  match port with
  | .cIn =>
    be32 p.cnt.cIn.received ++ be32 p.cnt.cIn.parity ++ be32 p.cnt.cIn.lengthRange ++ be32 p.cnt.cIn.lengthMismatch ++
      be32 p.cnt.cIn.crc ++ be32 p.cnt.cIn.fragment ++ be32 p.cnt.cIn.queueFull ++ be32 p.cnt.cIn.responseFull
  | .fIn =>
    be32 p.cnt.fIn.parity ++ be32 p.cnt.fIn.lengthRange ++ be32 p.cnt.fIn.lengthMismatch ++ be32 p.cnt.fIn.crc ++
      be32 p.cnt.fIn.fragment ++ be32 p.cnt.fIn.received ++ be32 p.cnt.fIn.queueFull
  | .fOut =>
    be32 p.cnt.fOut.forwarded ++ be32 p.cnt.fOut.unlisted ++ be32 p.cnt.fOut.configDrop ++ be32 p.cnt.fOut.overridden
  | .cOut => be32 p.cnt.cOutForwarded

/-- The data of HEALTH_READ (R184). -/
def healthData (item : HealthItem) (p : Part) : List Byte :=
  match item with
  | .node n =>
    be16 p.cnt.nodes[n].stray ++ be16 p.cnt.nodes[n].edgeLoss ++ [flagByte p.cnt.nodes[n].alerted] ++
      optByte p.cls.lastCounter[n]
  | .device z =>
    be32 p.cnt.devices[z].operations ++ be16 p.cnt.devices[z].slow ++ be16 p.cnt.devices[z].overrides ++
      [flagByte p.cnt.devices[z].alerted] ++ be16 p.store.params.slowThreshold
  | .train t =>
    be32 (p.train t).laps ++ [flagByte (p.train t).serviceDue, flagByte (p.train t).divert] ++
      be32 p.store.params.lapThreshold

/-- The item named is reset (R185). -/
def Part.resetHealth (p : Part) : HealthItem → Part
  | .node n => p.modNodeHealth n (fun _ => .zero)
  | .device z => p.modDeviceHealth z (fun _ => .zero)
  | .train t => p.modTrain t (fun r => { r with laps := 0, serviceDue := false })

/-- Every frame counter of the four ports at 0 (R180). -/
def Counters.clearFrames (c : Counters) : Counters :=
  { c with cIn := .zero, fIn := .zero, fOut := .zero, cOutForwarded := 0 }

end Sys2Proof.Machine
end

