-- ==== Sys2Proof/Machine/Management.lean ====
section
/-! DEFINITION. The Management Unit: what each request does (chapters 1, 6, 7, 9 and 10), the taking of a request (R163),
its response (R165) and the precedence record (R166). -/

namespace Sys2Proof.Machine

/-! ## Requests that belong to no other block -/

/-- CLEAR_FLAGS (R171). -/
def Part.clearFlags (p : Part) (flags : Byte) : Answer :=
  succeed (.start (p.clearStatus flags)) (fun p => [p.statusFlags])

/-- A TABLE_WRITE to an e-stop slot makes its memory unknown (R133). -/
def Part.forgetEstop (p : Part) : Slot → Part
  | .estop i => p.modMode (fun m => { m with estopMem := m.estopMem.set i none })
  | .node _ | .zone _ | .route _ | .switch _ | .placement _ | .params => p

/-- TABLE_WRITE to a slot, from condition 4 of R2 on. -/
def Part.writeSlot (p : Part) (slot : Slot) (loaded : Bool) (body : List Byte) : Answer :=
  if !loaded then succeed (.start ({ p with store := p.store.unload slot }.forgetEstop slot))
  else
    match p.store.load slot body with
    | .error n => badValue p n
    | .ok t => succeed (.start ({ p with store := t }.forgetEstop slot))

/-- TABLE_WRITE (R2, R189). -/
def Part.tableWrite (p : Part) (table index loaded : Byte) (body : List Byte) : Answer :=
  if p.mode ≠ .config then badMode p
  else if p.mgmt.loadTainted then refuse p .tainted
  else
    match slotOf table index, flagOf loaded with
    | some slot, some l =>
      if l && decide (body.length < slot.bodyLength) then badValue p 0 else p.writeSlot slot l body
    | _, _ => badValue p 0

/-- TABLE_READ (R172). -/
def Part.tableRead (p : Part) (table index : Byte) : Answer :=
  match slotOf table index with
  | none => badValue p 0
  | some slot => succeed (.start p) (fun p => table :: index :: p.slotBytes slot)

/-- TABLES_ERASE (R173). -/
def Part.tablesErase (p : Part) : Answer :=
  if p.mode ≠ .config then badMode p
  else succeed (.start ({ p with store := .erased }.modMgmt (fun m => { m with loadTainted := false })))

/-- QUERY_ZONE (R174). -/
def Part.queryZone (p : Part) (b : Byte) : Answer :=
  match zoneOf b with
  | none => badValue p 1
  | some z => succeed (.start p) (zoneData z)

/-- QUERY_TRAIN (R175). -/
def Part.queryTrain (p : Part) (b : Byte) : Answer :=
  match trainOf b with
  | none => badValue p 1
  | some x => succeed (.start p) (trainData x)

/-- SET_DIVERT (R119). -/
def Part.setDivert (p : Part) (tb v : Byte) : Answer :=
  if p.mode = .config then badMode p
  else
    match trainOf tb, flagOf v with
    | none, _ => badValue p 1
    | some _, none => badValue p 2
    | some x, some v => succeed ((Ev.start p).setDivert x v) (divertData x)

/-- EVENT_CTRL (R177). -/
def Part.eventCtrl (p : Part) (size mask : Byte) : Answer :=
  match BatchSize.ofCode size with
  | none =>
    { ev := .start (p.modMgmt Mgmt.reportingOff), result := .badValue, data := fun _ => [1] }
  | some b =>
    let r : Reporting := { batch := b, mask := .ofCode mask }
    succeed (.start (p.modMgmt (fun m => { m with setting := some r }))) (fun _ => r.bytes)

/-- COUNTERS_READ (R180). -/
def Part.countersRead (p : Part) (b : Byte) : Answer :=
  match portOf b with
  | none => badValue p 1
  | some port => succeed (.start p) (portData port)

/-- COUNTERS_CLEAR (R180). -/
def Part.countersClear (p : Part) : Answer := succeed (.start (p.modCounters Counters.clearFrames))

/-- HEALTH_READ (R184). -/
def Part.healthRead (p : Part) (kind index : Byte) : Answer :=
  match healthItemOf kind index with
  | .error n => badValue p n
  | .ok item => succeed (.start p) (healthData item)

/-- HEALTH_RESET (R185). -/
def Part.healthReset (p : Part) (kind index : Byte) : Answer :=
  match healthItemOf kind index with
  | .error n => badValue p n
  | .ok item => succeed (.start (p.resetHealth item)) (healthData item)

/-- RESET (R167). -/
def Part.requestReset (p : Part) : Answer := succeed (.start (p.modMgmt (fun m => { m with resetPending := true })))

/-! ## Taking a request (R163) -/

/-- What a request with a definition and enough arguments does. -/
def Part.perform (p : Part) (c : Request.Code) (args : List Byte) : Answer :=
  match c with
  | .identify => succeed (.start p) identifyData
  | .status => succeed (.start p) statusData
  | .clearFlags => p.clearFlags (byteAt args 0)
  | .setMode => p.setMode (byteAt args 0)
  | .arm => p.arm
  | .restore => p.restore (byteAt args 0)
  | .stop => p.stop
  | .tableWrite => p.tableWrite (byteAt args 0) (byteAt args 1) (byteAt args 2) (args.drop 3)
  | .tableRead => p.tableRead (byteAt args 0) (byteAt args 1)
  | .tablesErase => p.tablesErase
  | .queryZone => p.queryZone (byteAt args 0)
  | .queryTrain => p.queryTrain (byteAt args 0)
  | .overrideRelease => p.overrideRelease (byteAt args 0) (word16At args 1)
  | .reconcile => p.reconcile (byteAt args 0) (byteAt args 1) (byteAt args 2)
  | .setDivert => p.setDivert (byteAt args 0) (byteAt args 1)
  | .eventCtrl => p.eventCtrl (byteAt args 0) (byteAt args 1)
  | .countersRead => p.countersRead (byteAt args 0)
  | .countersClear => p.countersClear
  | .healthRead => p.healthRead (byteAt args 0) (byteAt args 1)
  | .healthReset => p.healthReset (byteAt args 0) (byteAt args 1)
  | .reset => p.requestReset

/-- What a request does, its code and the length of its arguments tested first (R163). -/
def Part.answer (p : Part) (code : Byte) (args : List Byte) : Answer :=
  match requestOf code with
  | none => refuse p .unknownRequest
  | some c => if c.tooShort args then badValue p 0 else p.perform c args

/-- The precedence record that a request leaves (R166). -/
def precedenceOf (code : Byte) (args : List Byte) (r : Result) : Precedence :=
  { code := code, zone := if requestOf code = some .queryZone then args.head? else none, success := r == .success }

/-- A request is carried out whole: its effects, its response at the back of the queue, the precedence record (R163). -/
def Part.carryOut (p : Part) (tag code : Byte) (args : List Byte) : Part :=
  let a := p.answer code args
  let p' := a.ev.finish
  p'.modMgmt (fun m =>
    { m with responses := m.responses ++ [{ tag := tag, code := code, result := a.result, data := a.data p' }]
             precedence := some (precedenceOf code args a.result) })

/-- A request discarded at a full response queue is counted (R163, R179). -/
def Part.countResponseFull (p : Part) : Part :=
  p.modCounters (fun c => { c with cIn := { c.cIn with responseFull := c.cIn.responseFull + 1 } })

/-- The Management Unit takes a request (R163, R167). -/
def Part.takeRequest (p : Part) (tag code : Byte) (args : List Byte) : Part :=
  if p.mgmt.resetPending then p
  else if Config.responseCapacity ≤ p.mgmt.responses.length then p.countResponseFull
  else p.carryOut tag code args

/-- A MGMT_REQUEST of length 0 or 1 is not taken and empties the precedence record (R188). -/
def Part.malformedRequest (p : Part) : Part := p.modMgmt (fun m => { m with precedence := none })

end Sys2Proof.Machine
end

