-- ==== Sys2Proof/Machine/Timers.lean ====
section
/-! DEFINITION. The expiries (R51): when each is due, what taking it does, and the taking of every due expiry in the
step that makes it due.  An expiry that is not pending or not due is not taken.  Taking one is an event of its own. -/

namespace Sys2Proof.Machine

/-! ## The expiries of a zone (R41, R42, R52) -/

/-- A due trap expiry stands before this transit expiry: expiries of one zone are taken in order of expiry time, the trap
first when they are equal (R51). -/
def ZoneDyn.trapFirst (d : ZoneDyn) (now : RingTime) : Bool :=
  match d.trapExpiry, d.transitExpiry with
  | some a, some b => atOrAfter now a && (!atOrAfter now b || atOrAfter b a)
  | some a, none => atOrAfter now a
  | none, _ => false

/-- The trap expiry of a MOVING zone whose trap is pending is taken (R52). -/
def Part.takeTrap (p : Part) (z : ZoneId) : Part :=
  let d := p.zone z
  match d.trapExpiry, p.zoneRec z with
  | some t, some rec =>
    if d.state = .moving ∧ d.trap = .pending ∧ d.trapFirst p.now then ((Ev.start p).expireTrap z rec t).finish else p
  | _, _ => p

/-- The transit expiry of a MOVING zone is taken: tracking fault LOST, and its train is LOST (R41). -/
def Part.takeTransit (p : Part) (z : ZoneId) : Part :=
  let d := p.zone z
  match d.transitExpiry, d.occupant with
  | some t, some x =>
    if d.state = .moving ∧ atOrAfter p.now t ∧ !d.trapFirst p.now then
      (((Ev.start p).fault z .lost t).modTrain x (fun r => { r with state := .lost })).finish
    else p
  | _, _ => p

/-- The release timer of a RELEASING zone is taken: tracking fault STUCK (R42). -/
def Part.takeRelease (p : Part) (z : ZoneId) : Part :=
  let d := p.zone z
  match d.releaseTimer with
  | some t => if d.state = .releasing ∧ atOrAfter p.now t then ((Ev.start p).fault z .stuck t).finish else p
  | none => p

/-! ## The gap, the switch timer, the supervision timers and the refusals (R61, R76, R101, R112) -/

/-- The gap expiry is taken: the gap is MET and the Route Setter is woken (R61). -/
def Part.takeGap (p : Part) : Part :=
  if isDue p.now p.dsp.expiry then
    (Ev.start { p with dsp := { p.dsp with gap := .met, expiry := none } }).woken.finish
  else p

/-- The switch timer is taken (R76). -/
def Part.takeSwitchTimer (p : Part) : Part :=
  if isDue p.now p.rs.timer then (Ev.start p).switchTimeout.finish else p

/-- The supervision timer of a zone's device is due. -/
def Part.supervisionDue (p : Part) (z : ZoneId) : Bool := isDue p.now (p.device z).timer

/-- The supervision timer of a device is taken; of several that are due the lowest zone comes first (R101, R106). -/
def Part.takeSupervision (p : Part) (z : ZoneId) : Part :=
  match (p.device z).timer, p.zoneRec z with
  | some t, some rec =>
    if atOrAfter p.now t ∧ !allZones.any (fun w => decide (w < z) && p.supervisionDue w) then
      ((Ev.start p).takeSupervision z rec t).finish
    else p
  | _, _ => p

/-- The refusal expiry of the request for `z` is taken; a gap expiry due with it comes first (R112). -/
def Part.takeRefusal (p : Part) (z : ZoneId) : Part :=
  match p.rs.requests.find? (fun q => q.zone == z), p.zoneRec z with
  | some q, some rec =>
    match q.refusal with
    | some t =>
      if atOrAfter p.now t ∧ !isDue p.now p.dsp.expiry then ((Ev.start p).takeRefusal z rec q.train t).finish else p
    | none => p
  | _, _ => p

/-! ## The timers of the Ring Path Unit (R152, R158 to R160) -/

/-- The broadcast repetition timer is taken with the latch set (R152). -/
def Part.takeBroadcast (p : Part) : Part :=
  if isDue p.now p.ring.bcastTimer && p.mc.latch then
    p.modRing (fun r => { r with bcastPending := true, bcastTimer := some (addTicks p.now p.cycleTicks) })
  else p

/-- The silence timer is taken (R158, R161). -/
def Part.takeSilence (p : Part) : Part :=
  match p.ring.silenceTimer with
  | some t =>
    if atOrAfter p.now t then
      let e := Ev.start (p.modRing (fun r => { r with silent := true, silenceTimer := none }))
      ((e.record t none none (.silence p.ring.lastCycleStart)).raise .silence).finish
    else p
  | none => p

/-- The field-link timer is taken (R159 to R161). -/
def Part.takeLink (p : Part) : Part :=
  match p.ring.linkTimer with
  | some t =>
    if atOrAfter p.now t then
      let e := Ev.start (p.modRing (fun r =>
        { r with linkDown := true, linkTimer := none, linkFaultPending := true, linkFaultCount := 1
                 repTimer := some (addTicks p.now p.cycleTicks) }))
      ((e.record t none none (.linkFault p.ring.lastFinStart)).raise .fieldLink).finish
    else p
  | none => p

/-- The LINK_FAULT repetition timer is taken (R160). -/
def Part.takeLinkRepetition (p : Part) : Part :=
  if isDue p.now p.ring.repTimer then
    p.modRing (fun r =>
      { r with linkFaultPending := true, linkFaultCount := sat16 r.linkFaultCount
               repTimer := some (addTicks p.now p.cycleTicks) })
  else p

/-! ## Every due expiry (R51) -/

/-- The expiries of zone `z` that are due: the earlier of trap and transit, then the other one if it still is due, and the
release timer. -/
def Part.takeZoneDue (p : Part) (z : ZoneId) : Part := (((p.takeTrap z).takeTransit z).takeTrap z).takeRelease z

/-- The due expiries that an edge's timestamp can have started in the past, those of the zones and of the gap, are taken
(R51: "already due when it is started … taken at once"). -/
def Part.takeEdgeDue (p : Part) : Part := (allZones.foldl Part.takeZoneDue p).takeGap

/-- Every expiry that is due at the present ring time is taken (R51: "taken as soon as it is due").  The order of expiries
of different zones and blocks is a DESIGN CHOICE (assumption log 5). -/
def Part.takeDue (p : Part) : Part :=
  let p := allZones.foldl Part.takeRefusal p.takeEdgeDue
  let p := allZones.foldl Part.takeSupervision p.takeSwitchTimer
  p.takeBroadcast.takeSilence.takeLink.takeLinkRepetition

/-- Ring time advances by one tick (R154), and every expiry that is due at the new time is taken in the same step (R51). -/
def Part.tick (p : Part) : Part := (p.modRing (fun r => { r with ringTime := r.ringTime + 1 })).takeDue

end Sys2Proof.Machine
end

