-- ==== Sys2Proof/Machine/RingPath.lean ====
section
/-! DEFINITION. The Ring Path Unit and the Frame Classifier: reception and drops (R145 to R147), classification and the
forward queues (R148 to R150), the interpretation of a report (R26, R149), the output arbiters (R151, R153, R178), and
the adoption of ring time (R155, R156). -/

namespace Sys2Proof.Machine

/-! ## Input ports and drops (R145 to R147) -/

/-- The state of an input port. -/
def RingPath.rx (r : RingPath) : InPort → RxState
  | .cIn => r.cIn
  | .fIn => r.fIn

/-- An input port in a new state. -/
def RingPath.setRx (r : RingPath) (port : InPort) (st : RxState) : RingPath :=
  match port with
  | .cIn => { r with cIn := st }
  | .fIn => { r with fIn := st }

/-- Change the frame counters of an input port. -/
def Counters.modIn (c : Counters) (port : InPort) (f : InCounters → InCounters) : Counters :=
  match port with
  | .cIn => { c with cIn := f c.cIn }
  | .fIn => { c with fIn := f c.fIn }

/-- One drop under its reason (R146, R179). -/
def InCounters.countDrop (c : InCounters) : DropReason → InCounters
  | .parity => { c with parity := c.parity + 1 }
  | .lengthRange => { c with lengthRange := c.lengthRange + 1 }
  | .lengthMismatch => { c with lengthMismatch := c.lengthMismatch + 1 }
  | .crc => { c with crc := c.crc + 1 }
  | .fragment => { c with fragment := c.fragment + 1 }

/-- The further effects of a drop (R147). -/
def Mgmt.noteDrop (m : Mgmt) (port : InPort) (mode : Mode) : Mgmt :=
  match port with
  | .cIn =>
    { m with frameError := true, precedence := none, loadTainted := m.loadTainted || mode == .config }
  | .fIn => { m with frameError := true }

/-- A drop on a port (R146, R147). -/
def Part.drop (p : Part) (port : InPort) (reason : DropReason) : Part :=
  (p.modCounters (fun c => c.modIn port (fun i => i.countDrop reason))).modMgmt (fun m => m.noteDrop port p.mode)

/-- A frame start on F-in while the link is up restarts the field-link timer (R159); on C-in nothing is noted. -/
def Part.noteStart (p : Part) : InPort → Part
  | .cIn => p
  | .fIn => p.modRing (fun r =>
    { r with lastFinStart := some p.now
             linkTimer := if r.linkDown then r.linkTimer else some (addTicks p.now (2 * p.cycleTicks)) })

/-- A start-of-frame symbol (R145).  A port that waits for an idle line after a reset does not take it (R162). -/
def Part.startSymbol (p : Part) (port : InPort) : Part :=
  match p.ring.rx port with
  | .waitIdle => p
  | .idle => (p.noteStart port).modRing (fun r => r.setRx port .receiving)
  | .receiving => (p.drop port .fragment).noteStart port

/-- A receiving port has seen no symbol for more than 8 byte times (R145). -/
def Part.fragmentTimeout (p : Part) (port : InPort) : Part :=
  match p.ring.rx port with
  | .receiving => (p.drop port .fragment).modRing (fun r => r.setRx port .idle)
  | .idle | .waitIdle => p

/-- An input line has been idle for more than 8 byte times after a reset (R162). -/
def Part.lineIdle (p : Part) (port : InPort) : Part :=
  match p.ring.rx port with
  | .waitIdle => p.modRing (fun r => r.setRx port .idle)
  | .idle | .receiving => p

/-! ## The forward queues (R150) -/

/-- A frame refused by a full forward queue (R150, R179). -/
def Part.countQueueFull (p : Part) (port : InPort) : Part :=
  p.modCounters (fun c => c.modIn port (fun i => { i with queueFull := i.queueFull + 1 }))

/-- A frame from C-in joins the downstream queue (R150). -/
def Part.queueDown (p : Part) (f : Frame) : Part :=
  if p.ring.down.length < Config.forwardCapacity then p.modRing (fun r => { r with down := r.down ++ [f] })
  else p.countQueueFull .cIn

/-- A frame from F-in joins the upstream queue (R150). -/
def Part.queueUp (p : Part) (f : Frame) : Part :=
  if p.ring.up.length < Config.forwardCapacity then p.modRing (fun r => { r with up := r.up ++ [f] })
  else p.countQueueFull .fIn

/-- An intact frame counts as received (R179). -/
def Part.countReceived (p : Part) (port : InPort) : Part :=
  p.modCounters (fun c => c.modIn port (fun i => { i with received := i.received + 1 }))

/-! ## Ring time (R155, R156, R158) -/

/-- Ring time `c` is at most 100 ticks away from `r` (R155). -/
def withinTolerance (r c : RingTime) : Bool :=
  decide ((c - r).toNat ≤ Config.timeTolerance) || decide ((r - c).toNat ≤ Config.timeTolerance)

/-- A running timer restarted from `c` with its full duration; a timer that was not running is not started (R156). -/
def restarted (c : RingTime) (duration : Nat) (timer : Option RingTime) : Option RingTime :=
  timer.map (fun _ => addTicks c duration)

/-- The adoption of ring time `c`: it ends a silence and restarts the silence timer (R155, R158). -/
def RingPath.adopt (r : RingPath) (c : RingTime) (silence : Nat) : RingPath :=
  { r with ringTime := c, synced := true, silent := false, lastCycleStart := some c
           silenceTimer := some (addTicks c silence) }

/-- The timers of the Ring Path Unit that an adoption restarts when it is not silent (R156). -/
def RingPath.restartTimers (r : RingPath) (c : RingTime) (cycle : Nat) : RingPath :=
  { r with linkTimer := restarted c (2 * cycle) r.linkTimer, repTimer := restarted c cycle r.repTimer
           bcastTimer := restarted c cycle r.bcastTimer }

/-- An intact CYCLE_START carrying `c` is offered to ring time: a pending reporting setting takes effect first (R177), a
step outside CONFIG raises TIME (R155). -/
def Part.offerTime (p : Part) (c : RingTime) : Part :=
  let p := p.modMgmt Mgmt.applySetting
  let near := withinTolerance p.now c
  let step := p.ring.synced && !near
  let cycle := p.cycleTicks
  let adopted := p.modRing (fun r =>
    let r' := r.adopt c (msTicks p.store.params.silenceLimit.toNat)
    if near && r.synced then r' else r'.restartTimers c cycle)
  let e := Ev.start adopted
  (if step then e.raise .time else e).finish

/-! ## The e-stop inputs (R133) -/

/-- One e-stop entry of the reporting node: its level is compared with the memory and remembered (R133). -/
def Ev.testEstop (n : NodeId) (e : Ev) (i : EntryId) : Ev :=
  match e.p.store.estops[i] with
  | none => e
  | some r =>
    if r.node = n then
      let active := e.p.level r
      let rising := active && e.p.mc.estopMem[i] != some true
      let e := e.mod (fun p => p.modMode (fun m => { m with estopMem := m.estopMem.set i (some active) }))
      if rising then e.raise .estop (some i) else e
    else e

/-- The e-stop entries of a node in ascending index order (R133). -/
def Ev.testEstops (e : Ev) (n : NodeId) : Ev := allEntries.foldl (Ev.testEstop n) e

/-! ## Reports (R26, R149) -/

/-- A report of the node wakes the Route Setter: it carries a ready input of a STATION or LAUNCH zone (R68). -/
def Part.carriesReady (p : Part) (n : NodeId) : Bool :=
  allZones.any (fun z =>
    match p.zoneRec z with
    | none => false
    | some rec => rec.kind.dispatches && rec.ready.any (fun r => r.node == n))

/-- The latest levels of the node become those of the report (step 1 of R26). -/
def Part.setLevels (p : Part) (r : Report) : Part :=
  { p with cls := { p.cls with levels := p.cls.levels.set r.node (some r.levels) } }

/-- Steps 1 to 3 of R26: levels, lost edges, then the edges in list order, which CONFIG leaves out. -/
def Ev.trackReport (e : Ev) (r : Report) : Ev :=
  let e := (e.mod (fun p => p.setLevels r)).checkCounter r
  if e.p.mode = .config then e else r.edges.foldl (Ev.takeEdge r.node) e

/-- A report after its last edge: dispatches, supervision, locks and e-stops, then the causes, the waiting claim, the
readiness tests and the examination they wake (R26, R75, R100, R131, R149). -/
def Ev.readReport (e : Ev) (n : NodeId) : Ev :=
  let e := ((e.recordDispatches.superviseDevices n).superviseLocks n).testEstops n
  let e := ((e.applyRaises).resumeClaim n).testAllReady n
  if e.p.carriesReady n then e.woken else e

/-- The report of a field node is interpreted (R26, R149), as one event. -/
def Part.interpretReport (p : Part) (r : Report) : Part := (((Ev.start p).trackReport r).readReport r.node).close

/-- The report of a field node is taken: an expiry that one of its edges started already due is taken in the same step,
after the event of the report (R51; that it comes after is a DESIGN CHOICE, assumption log 5). -/
def Part.takeReport (p : Part) (r : Report) : Part := (p.interpretReport r).takeEdgeDue

/-- An intact frame from F-in ends the field-link condition (R159). -/
def Part.restoreLink (p : Part) : Part :=
  if p.ring.linkDown then
    p.modRing (fun r =>
      { r with linkDown := false, repTimer := none, linkFaultPending := false
               linkTimer := some (addTicks p.now (2 * p.cycleTicks)) })
  else p

/-! ## Classification (R148, R149, R188) -/

/-- The part takes an intact frame from C-in (R148, R188).  Every expiry that is due at the adopted ring time is taken in
the same step (R51), after the adoption with the TIME raise of a step (DESIGN CHOICE, assumption log 5). -/
def Part.takeCin (p : Part) (f : Frame) : Part :=
  let p := p.countReceived .cIn
  if f.ftype = typeCycleStart then
    match cycleTimeOf f with
    | some c => (p.offerTime c).takeDue.queueDown f
    | none => p.queueDown f
  else if f.ftype = typeRequest ∧ addrOf f.dest = addrPart then
    match f.payload with
    | tag :: code :: args => p.takeRequest tag code args
    | _ => p.malformedRequest
  else p.queueDown f

/-- The part takes an intact frame from F-in (R149, R188). -/
def Part.takeFin (p : Part) (f : Frame) : Part :=
  let p := (p.countReceived .fIn).restoreLink
  let report := if f.ftype = typeReport then reportOf f else none
  match report with
  | some r => (p.takeReport r).queueUp f
  | none => p.queueUp f

/-! ## Output ports (R151, R153) -/

/-- A frame begins its transmission on F-out (R151, R179). -/
def Part.sendFout (p : Part) (f : Frame) (overridden : Bool) : Part :=
  (p.modRing (fun r => { r with fOut := some f })).modCounters (fun c =>
    { c with fOut :=
        { c.fOut with forwarded := c.fOut.forwarded + 1
                      overridden := if overridden then c.fOut.overridden + 1 else c.fOut.overridden } })

/-- A COMMAND frame dropped by the filter is counted (R92, R179). -/
def Part.countFilterDrop (p : Part) (why : FilterDrop) : Part :=
  p.modCounters (fun c =>
    { c with fOut :=
        match why with
        | .unlisted => { c.fOut with unlisted := c.fOut.unlisted + 1 }
        | .configDrop => { c.fOut with configDrop := c.fOut.configDrop + 1 } })

/-- The broadcast hold frame is transmitted on F-out (R104, R151, R152). -/
def Part.sendBroadcast (p : Part) : Part :=
  (Ev.start ((p.modRing (fun r => { r with bcastPending := false })).sendFout broadcastHold false)).broadcastHeld.finish

/-- The front frame of the downstream queue, taken out of it. -/
def Part.popDown (p : Part) : Part := p.modRing (fun r => { r with down := r.down.tail })

/-- The front frame of the downstream queue is taken for transmission; after a frame that the filter drops the arbiter
makes its choice again in the same event, at most `n` times (R92, R151). -/
def Part.sendDown : Nat → Part → Part
  | 0, p => p
  | n + 1, p =>
    match p.ring.down with
    | [] => p
    | f :: _ =>
      if f.ftype = typeCommand then
        match (Ev.start p.popDown).filter f with
        | .dropped e why => Part.sendDown n (e.p.countFilterDrop why)
        | .sent e f' changed => (e.mod (fun p => p.sendFout f' changed)).finish
      else p.popDown.sendFout f false

/-- The F-out arbiter makes its choice (R151). -/
def Part.chooseFout (p : Part) : Part :=
  if p.ring.fOut.isSome then p
  else if p.ring.bcastPending then p.sendBroadcast
  else Part.sendDown p.ring.down.length p

/-- A frame begins its transmission on C-out (R153, R179). -/
def Part.sendCout (p : Part) (f : Frame) (isReset : Bool) : Part :=
  (p.modRing (fun r => { r with cOut := some { frame := f, isReset := isReset } })).modCounters
    (fun c => { c with cOutForwarded := c.cOutForwarded + 1 })

/-- The pending LINK_FAULT frame is transmitted (R160). -/
def Part.sendLinkFault (p : Part) : Part :=
  (p.modRing (fun r => { r with linkFaultPending := false })).sendCout
    (linkFaultOf p.now p.ring.lastFinStart p.ring.linkFaultCount) false

/-- A response is the answer to a RESET request (R167). -/
def Response.isReset (r : Response) : Bool := requestOf r.code == some .reset && r.result == .success

/-- The front response is transmitted (R164). -/
def Part.sendResponse (p : Part) (r : Response) : Part :=
  (p.modMgmt (fun m => { m with responses := m.responses.tail })).sendCout r.frame r.isReset

/-- The front frame of the upstream queue is transmitted (R153). -/
def Part.sendUp (p : Part) (f : Frame) : Part := (p.modRing (fun r => { r with up := r.up.tail })).sendCout f false

/-- An EVENT frame may be built: reporting is on and a record waits (R178). -/
def Part.eventsWait (p : Part) : Bool := p.mgmt.reporting.batch != .off && !p.mgmt.events.isEmpty

/-- An EVENT frame of the oldest records is transmitted (R178). -/
def Part.sendEvents (p : Part) : Part :=
  let k := p.mgmt.reporting.batch.toNat
  let left := p.mgmt.events.drop k
  (p.modMgmt (fun m => { m with events := left })).sendCout (eventFrameOf left.length (p.mgmt.events.take k)) false

/-- What the C-out arbiter would take next (R153). -/
inductive CoutChoice where
  | linkFault | response (r : Response) | upstream (f : Frame) | events | nothing
  deriving DecidableEq, Repr

/-- The choice of the C-out arbiter while C-out is IDLE (R153). -/
def Part.coutChoice (p : Part) : CoutChoice :=
  if p.ring.linkFaultPending then .linkFault
  else
    match p.mgmt.responses, p.ring.up with
    | r :: _, _ => .response r
    | [], f :: _ => .upstream f
    | [], [] => if p.eventsWait then .events else .nothing

/-- A choice is carried out. -/
def Part.sendChoice (p : Part) : CoutChoice → Part
  | .linkFault => p.sendLinkFault
  | .response r => p.sendResponse r
  | .upstream f => p.sendUp f
  | .events => p.sendEvents
  | .nothing => p

/-- The C-out arbiter makes its choice (R153). -/
def Part.chooseCout (p : Part) : Part := if p.ring.cOut.isSome then p else p.sendChoice p.coutChoice

end Sys2Proof.Machine
end

