-- ==== Sys2Proof/Machine/Lines.lean ====
section
/-! DEFINITION. The discrete lines and the supply (R134, R135), the beginning and the end of a reset (R162, R186), and the
ends of transmissions (R151, R167). -/

namespace Sys2Proof.Machine

/-! ## Resets (R162, R186) -/

/-- The Ring Path Unit at the start of a reset: nothing is received or transmitted, the queues are empty, no timer runs
(R162). -/
def RingPath.enterReset (r : RingPath) : RingPath :=
  { r with cIn := .waitIdle, fIn := .waitIdle, fOut := none, cOut := none, down := [], up := []
           bcastPending := false, bcastTimer := none, silenceTimer := none, linkTimer := none, repTimer := none
           linkFaultPending := false }

/-- A reset begins, or a further condition extends one in progress and names it (R129, R162, R186). -/
def Part.beginReset (p : Part) (cause : ResetCause) : Part :=
  let p := (p.modRing RingPath.enterReset).modMgmt (fun m => { m with responses := [], events := [], resetPending := false })
  { p.modMode (fun m => { m with healthy := false }) with
    lines := { p.lines with inReset := true, resetCause := cause } }

/-- The override budget at the end of a reset (R143, R186). -/
def ModeCtl.budgetAfter (m : ModeCtl) (cause : ResetCause) : Fin 6 :=
  match cause with
  | .resetRequest => m.budget
  | .powerOn | .supplyLow | .resetLine => 5

/-- The end of a reset, with the supply warning condition as the supply then stands (R135, R162). -/
def Part.endReset (p : Part) (supplyWarn : Bool) : Part :=
  if p.lines.inReset then
    .afterReset p.lines.resetCause (p.mc.budgetAfter p.lines.resetCause) p.lines.maintKey supplyWarn
  else p

/-! ## Lines (R134, R135) -/

/-- The MAINT_KEY line takes a level; its loss in MAINT raises KEY (R134). -/
def Part.setKey (p : Part) (active : Bool) : Part :=
  let lost := p.lines.maintKey && !active && p.mode == .maint && !p.lines.inReset
  let e := Ev.start { p with lines := { p.lines with maintKey := active } }
  if lost then (e.raise .key).finish else e.p

/-- The supply falls below 2.95 V: the warning begins and SUPPLY is raised (R135). -/
def Part.beginWarning (p : Part) : Part :=
  if p.lines.supplyWarn then p
  else ((Ev.start { p with lines := { p.lines with supplyWarn := true } }).raise .supply).finish

/-- The supply returns to 2.95 V or above (R135). -/
def Part.endWarning (p : Part) : Part := { p with lines := { p.lines with supplyWarn := false } }

/-! ## Ends of transmission (R151, R167) -/

/-- The frame in transmission on C-out is the RESET response (R167). -/
def Part.resetSending (p : Part) : Bool :=
  match p.ring.cOut with
  | some c => c.isReset
  | none => false

/-- The transmission of the RESET response ends, and the reset begins (R167). -/
def Part.resetSent (p : Part) : Part := if p.resetSending then p.beginReset .resetRequest else p

/-- The frame in transmission on a port reaches its end symbol; the port falls IDLE and its arbiter chooses the next frame
that waits (R151).  The end of the RESET response begins the reset instead (R167). -/
def Part.endTransmission (p : Part) (port : OutPort) : Part :=
  match port with
  | .fOut => if p.ring.fOut.isSome then (p.modRing (fun r => { r with fOut := none })).chooseFout else p
  | .cOut =>
    if p.resetSending then p.resetSent
    else if p.ring.cOut.isSome then (p.modRing (fun r => { r with cOut := none })).chooseCout
    else p

/-! ## How a command reaches the part -/

/-- While the part is in reset nothing else happens to it (R162). -/
def Part.live (p : Part) (f : Part → Part) : Part := if p.lines.inReset then p else f p

/-- A frame whose end symbol a RECEIVING port has seen leaves the port IDLE and is taken; a port that is not RECEIVING has
no frame to take (R145). -/
def Part.receive (p : Part) (port : InPort) (take : Part → Part) : Part :=
  if p.ring.rx port = .receiving then take (p.modRing (fun r => r.setRx port .idle)) else p

/-- A frame that has failed a check, or an intact one after all, ends on a port (R146, R148, R149). -/
def Part.takeFrame (p : Part) (port : InPort) (rx : List RxSymbol) : Part :=
  match checkFrame rx with
  | .dropped reason => p.drop port reason
  | .intact f =>
    match port with
    | .cIn => p.takeCin f
    | .fIn => p.takeFin f

/-- The front frame of the downstream queue is a COMMAND, or is not; absent on an empty queue. -/
def Part.frontIsCommand (p : Part) : Option Bool := p.ring.down.head?.map (fun f => f.ftype == typeCommand)

/-- The F-out arbiter's choice is the front frame of the downstream queue, of this sort (R151). -/
def Part.chooseDown (p : Part) (command : Bool) : Part :=
  if !p.ring.bcastPending && p.frontIsCommand == some command then p.chooseFout else p

/-- The F-out arbiter's choice is the pending broadcast hold injection (R151). -/
def Part.chooseBroadcast (p : Part) : Part := if p.ring.bcastPending then p.chooseFout else p

/-- The four sources of C-out (R153). -/
inductive CoutSource where
  | linkFault | responses | upstream | events
  deriving DecidableEq, Repr

/-- The source of a choice. -/
def CoutChoice.source : CoutChoice → Option CoutSource
  | .linkFault => some .linkFault
  | .response _ => some .responses
  | .upstream _ => some .upstream
  | .events => some .events
  | .nothing => none

/-- The C-out arbiter's choice is a frame of this source (R153). -/
def Part.chooseFrom (p : Part) (source : CoutSource) : Part :=
  if p.coutChoice.source = some source then p.chooseCout else p

/-- The next state, with the part changed and the waiting commands as they are. -/
def State.onPart (s : State) (f : Part → Part) : Host.Outcome State Fault Refusal := .next { s with part := f s.part }

end Sys2Proof.Machine
end

