-- ==== Sys2Proof/Machine/Expiries.lean ====
section
/-! DEFINITION. The meanings of the commands of time: a tick of ring time and the expiries (R51, R154). -/

namespace Sys2Proof.Machine

/-- RING_TIME_TICK: ring time advances by one tick (R154). -/
def execRingTimeTick (s : State) : Host.Outcome State Fault Refusal :=
  s.onPart (fun p => p.live Part.tick)

/-- TRAP_EXPIRY: the trap expiry of a zone is taken (R52). -/
def execTrapExpiry (z : ZoneId) (s : State) : Host.Outcome State Fault Refusal :=
  s.onPart (fun p => p.live (fun p => p.takeTrap z))

/-- TRANSIT_EXPIRY: the transit expiry of a zone is taken (R41). -/
def execTransitExpiry (z : ZoneId) (s : State) : Host.Outcome State Fault Refusal :=
  s.onPart (fun p => p.live (fun p => p.takeTransit z))

/-- RELEASE_TIMER: the release timer of a zone is taken (R42). -/
def execReleaseTimer (z : ZoneId) (s : State) : Host.Outcome State Fault Refusal :=
  s.onPart (fun p => p.live (fun p => p.takeRelease z))

/-- GAP_EXPIRY: the dispatch gap expiry is taken (R61). -/
def execGapExpiry (s : State) : Host.Outcome State Fault Refusal :=
  s.onPart (fun p => p.live Part.takeGap)

/-- SWITCH_TIMER: the switch timer of a waiting claim is taken (R76). -/
def execSwitchTimer (s : State) : Host.Outcome State Fault Refusal :=
  s.onPart (fun p => p.live Part.takeSwitchTimer)

/-- SUPERVISION_TIMER: the supervision timer of a zone's device is taken (R101). -/
def execSupervisionTimer (z : ZoneId) (s : State) : Host.Outcome State Fault Refusal :=
  s.onPart (fun p => p.live (fun p => p.takeSupervision z))

/-- REFUSAL_EXPIRY: the refusal expiry of the request for a zone is taken (R112). -/
def execRefusalExpiry (z : ZoneId) (s : State) : Host.Outcome State Fault Refusal :=
  s.onPart (fun p => p.live (fun p => p.takeRefusal z))

/-- BROADCAST_REPETITION: the broadcast repetition timer is taken (R152). -/
def execBroadcastRepetition (s : State) : Host.Outcome State Fault Refusal :=
  s.onPart (fun p => p.live Part.takeBroadcast)

/-- SILENCE_TIMER: the silence timer is taken (R158). -/
def execSilenceTimer (s : State) : Host.Outcome State Fault Refusal :=
  s.onPart (fun p => p.live Part.takeSilence)

/-- FIELD_LINK_TIMER: the field-link timer is taken (R159). -/
def execFieldLinkTimer (s : State) : Host.Outcome State Fault Refusal :=
  s.onPart (fun p => p.live Part.takeLink)

/-- LINK_FAULT_REPETITION: the LINK_FAULT repetition timer is taken (R160). -/
def execLinkFaultRepetition (s : State) : Host.Outcome State Fault Refusal :=
  s.onPart (fun p => p.live Part.takeLinkRepetition)

end Sys2Proof.Machine
end

