-- ==== Sys2Proof/Machine/RingFrames.lean ====
section
/-! DEFINITION. The meanings of the commands of the four ports: symbols and frames that arrive, and frames that the output
arbiters take. -/

namespace Sys2Proof.Machine

/-- FRAME_START: a start-of-frame symbol on an input port (R145, R159). -/
def execFrameStart (port : InPort) (s : State) : Host.Outcome State Fault Refusal :=
  s.onPart (fun p => p.live (fun p => p.startSymbol port))

/-- FRAGMENT_TIMEOUT: a receiving port sees no symbol for more than 8 byte times (R145). -/
def execFragmentTimeout (port : InPort) (s : State) : Host.Outcome State Fault Refusal :=
  s.onPart (fun p => p.live (fun p => p.fragmentTimeout port))

/-- FRAME_DROP: a completed frame that fails a check (R146, R147). -/
def execFrameDrop (port : InPort) (rx : List RxSymbol) (s : State) : Host.Outcome State Fault Refusal :=
  s.onPart (fun p => p.live (fun p => p.receive port (fun p => p.takeFrame port rx)))

/-- An intact frame ends on C-in. -/
def State.onCin (s : State) (f : Frame) : Host.Outcome State Fault Refusal :=
  s.onPart (fun p => p.live (fun p => p.receive .cIn (fun p => p.takeCin f)))

/-- An intact frame ends on F-in. -/
def State.onFin (s : State) (f : Frame) : Host.Outcome State Fault Refusal :=
  s.onPart (fun p => p.live (fun p => p.receive .fIn (fun p => p.takeFin f)))

/-- CYCLE_START: an intact CYCLE_START taken from C-in (R148, R155). -/
def execCycleStart (f : Frame) (s : State) : Host.Outcome State Fault Refusal := s.onCin f

/-- COMMAND_FRAME: an intact COMMAND frame taken from C-in (R148). -/
def execCommandFrame (f : Frame) (s : State) : Host.Outcome State Fault Refusal := s.onCin f

/-- CIN_FRAME_FORWARD: another intact frame taken from C-in (R148). -/
def execCinFrameForward (f : Frame) (s : State) : Host.Outcome State Fault Refusal := s.onCin f

/-- REPORT_FRAME: an intact REPORT frame of a field node taken from F-in (R26, R149). -/
def execReportFrame (f : Frame) (s : State) : Host.Outcome State Fault Refusal := s.onFin f

/-- FIN_FRAME_FORWARD: another intact frame taken from F-in (R149). -/
def execFinFrameForward (f : Frame) (s : State) : Host.Outcome State Fault Refusal := s.onFin f

/-- COMMAND_TRANSMIT: the F-out arbiter takes a COMMAND frame (R92, R151). -/
def execCommandTransmit (s : State) : Host.Outcome State Fault Refusal :=
  s.onPart (fun p => p.live (fun p => p.chooseDown true))

/-- BROADCAST_HOLD_FRAME: the F-out arbiter takes the pending broadcast hold injection (R104, R151). -/
def execBroadcastHoldFrame (s : State) : Host.Outcome State Fault Refusal :=
  s.onPart (fun p => p.live Part.chooseBroadcast)

/-- FOUT_FRAME_TRANSMIT: the F-out arbiter takes a frame that is no COMMAND (R151). -/
def execFoutFrameTransmit (s : State) : Host.Outcome State Fault Refusal :=
  s.onPart (fun p => p.live (fun p => p.chooseDown false))

/-- LINK_FAULT_FRAME: the C-out arbiter takes the pending LINK_FAULT frame (R153, R160). -/
def execLinkFaultFrame (s : State) : Host.Outcome State Fault Refusal :=
  s.onPart (fun p => p.live (fun p => p.chooseFrom .linkFault))

/-- MGMT_RESPONSE: the C-out arbiter takes the front response (R153, R164). -/
def execMgmtResponse (s : State) : Host.Outcome State Fault Refusal :=
  s.onPart (fun p => p.live (fun p => p.chooseFrom .responses))

/-- COUT_UPSTREAM_TRANSMIT: the C-out arbiter takes the front frame of the upstream queue (R153). -/
def execCoutUpstreamTransmit (s : State) : Host.Outcome State Fault Refusal :=
  s.onPart (fun p => p.live (fun p => p.chooseFrom .upstream))

/-- EVENT_FRAME: the C-out arbiter builds an EVENT frame (R153, R178). -/
def execEventFrame (s : State) : Host.Outcome State Fault Refusal :=
  s.onPart (fun p => p.live (fun p => p.chooseFrom .events))

/-- RESET_RESPONSE_SENT: the transmission of the RESET response ends (R167). -/
def execResetResponseSent (s : State) : Host.Outcome State Fault Refusal := s.onPart (fun p => p.live Part.resetSent)

/-- TRANSMISSION_END: a frame in transmission reaches its end symbol (R151). -/
def execTransmissionEnd (port : OutPort) (s : State) : Host.Outcome State Fault Refusal :=
  s.onPart (fun p => p.live (fun p => p.endTransmission port))

/-- LINE_IDLE_AFTER_RESET: an input line has been idle for more than 8 byte times (R162). -/
def execLineIdleAfterReset (port : InPort) (s : State) : Host.Outcome State Fault Refusal :=
  s.onPart (fun p => p.live (fun p => p.lineIdle port))

end Sys2Proof.Machine
end

