-- ==== Sys2Proof/Machine/Requests.lean ====
section
/-! DEFINITION. The meanings of the management requests: an intact MGMT_REQUEST to node 62 ends on C-in (R148, R163). -/

namespace Sys2Proof.Machine

/-- A MGMT_REQUEST frame from the ride controller to node 62; the source address is not checked (R163). -/
def requestFrame (payload : List Byte) : Frame := { dest := 62, src := 0, ftype := typeRequest, payload := payload }

/-- A management request with its tag, code and arguments ends on C-in. -/
def State.onRequest (s : State) (tag code : Byte) (args : List Byte) : Host.Outcome State Fault Refusal :=
  s.onCin (requestFrame (tag :: code :: args))

/-- IDENTIFY: a request of code 01h (R168). -/
def execIdentify (tag : Byte) (args : List Byte) (s : State) : Host.Outcome State Fault Refusal :=
  s.onRequest tag 0x01 args

/-- STATUS: a request of code 02h (R169). -/
def execStatus (tag : Byte) (args : List Byte) (s : State) : Host.Outcome State Fault Refusal :=
  s.onRequest tag 0x02 args

/-- CLEAR_FLAGS: a request of code 03h (R171). -/
def execClearFlags (tag : Byte) (args : List Byte) (s : State) : Host.Outcome State Fault Refusal :=
  s.onRequest tag 0x03 args

/-- SET_MODE_RUN: a request of code 04h (R127). -/
def execSetModeRun (tag : Byte) (args : List Byte) (s : State) : Host.Outcome State Fault Refusal :=
  s.onRequest tag 0x04 args

/-- SET_MODE_MAINT: a request of code 04h (R127). -/
def execSetModeMaint (tag : Byte) (args : List Byte) (s : State) : Host.Outcome State Fault Refusal :=
  s.onRequest tag 0x04 args

/-- SET_MODE_CONFIG: a request of code 04h (R127, R128). -/
def execSetModeConfig (tag : Byte) (args : List Byte) (s : State) : Host.Outcome State Fault Refusal :=
  s.onRequest tag 0x04 args

/-- ARM: a request of code 05h (R12 to R19). -/
def execArm (tag : Byte) (args : List Byte) (s : State) : Host.Outcome State Fault Refusal :=
  s.onRequest tag 0x05 args

/-- RESTORE: a request of code 06h (R137). -/
def execRestore (tag : Byte) (args : List Byte) (s : State) : Host.Outcome State Fault Refusal :=
  s.onRequest tag 0x06 args

/-- STOP: a request of code 07h (R136). -/
def execStop (tag : Byte) (args : List Byte) (s : State) : Host.Outcome State Fault Refusal :=
  s.onRequest tag 0x07 args

/-- TABLE_WRITE: a request of code 08h (R2). -/
def execTableWrite (tag : Byte) (args : List Byte) (s : State) : Host.Outcome State Fault Refusal :=
  s.onRequest tag 0x08 args

/-- TABLE_READ: a request of code 09h (R172). -/
def execTableRead (tag : Byte) (args : List Byte) (s : State) : Host.Outcome State Fault Refusal :=
  s.onRequest tag 0x09 args

/-- TABLES_ERASE: a request of code 0Ah (R173). -/
def execTablesErase (tag : Byte) (args : List Byte) (s : State) : Host.Outcome State Fault Refusal :=
  s.onRequest tag 0x0A args

/-- QUERY_ZONE: a request of code 0Bh (R174). -/
def execQueryZone (tag : Byte) (args : List Byte) (s : State) : Host.Outcome State Fault Refusal :=
  s.onRequest tag 0x0B args

/-- QUERY_TRAIN: a request of code 0Ch (R175). -/
def execQueryTrain (tag : Byte) (args : List Byte) (s : State) : Host.Outcome State Fault Refusal :=
  s.onRequest tag 0x0C args

/-- OVERRIDE_RELEASE: a request of code 0Dh (R141 to R143). -/
def execOverrideRelease (tag : Byte) (args : List Byte) (s : State) : Host.Outcome State Fault Refusal :=
  s.onRequest tag 0x0D args

/-- RECONCILE_PLACE: a request of code 0Eh (R138, R139). -/
def execReconcilePlace (tag : Byte) (args : List Byte) (s : State) : Host.Outcome State Fault Refusal :=
  s.onRequest tag 0x0E args

/-- RECONCILE_REMOVE: a request of code 0Eh (R138, R140). -/
def execReconcileRemove (tag : Byte) (args : List Byte) (s : State) : Host.Outcome State Fault Refusal :=
  s.onRequest tag 0x0E args

/-- RECONCILE_CLEAR: a request of code 0Eh (R138, R140). -/
def execReconcileClear (tag : Byte) (args : List Byte) (s : State) : Host.Outcome State Fault Refusal :=
  s.onRequest tag 0x0E args

/-- SET_DIVERT: a request of code 0Fh (R119). -/
def execSetDivert (tag : Byte) (args : List Byte) (s : State) : Host.Outcome State Fault Refusal :=
  s.onRequest tag 0x0F args

/-- EVENT_CTRL: a request of code 10h (R177). -/
def execEventCtrl (tag : Byte) (args : List Byte) (s : State) : Host.Outcome State Fault Refusal :=
  s.onRequest tag 0x10 args

/-- COUNTERS_READ: a request of code 11h (R180). -/
def execCountersRead (tag : Byte) (args : List Byte) (s : State) : Host.Outcome State Fault Refusal :=
  s.onRequest tag 0x11 args

/-- COUNTERS_CLEAR: a request of code 12h (R180). -/
def execCountersClear (tag : Byte) (args : List Byte) (s : State) : Host.Outcome State Fault Refusal :=
  s.onRequest tag 0x12 args

/-- HEALTH_READ: a request of code 13h (R184). -/
def execHealthRead (tag : Byte) (args : List Byte) (s : State) : Host.Outcome State Fault Refusal :=
  s.onRequest tag 0x13 args

/-- HEALTH_RESET: a request of code 14h (R185). -/
def execHealthReset (tag : Byte) (args : List Byte) (s : State) : Host.Outcome State Fault Refusal :=
  s.onRequest tag 0x14 args

/-- RESET: a request of code 15h (R167). -/
def execReset (tag : Byte) (args : List Byte) (s : State) : Host.Outcome State Fault Refusal :=
  s.onRequest tag 0x15 args

/-- UNKNOWN_REQUEST: a request whose code has no definition (R163). -/
def execUnknownRequest (tag code : Byte) (args : List Byte) (s : State) : Host.Outcome State Fault Refusal :=
  s.onRequest tag code args

/-- RESPONSE_FULL: a request that finds the response queue full (R163). -/
def execResponseFull (tag code : Byte) (args : List Byte) (s : State) : Host.Outcome State Fault Refusal :=
  s.onRequest tag code args

/-- MALFORMED_MGMT_REQUEST: a MGMT_REQUEST to 62 whose payload holds no tag and code (R188). -/
def execMalformedMgmtRequest (payload : List Byte) (s : State) : Host.Outcome State Fault Refusal :=
  s.onCin (requestFrame payload)

end Sys2Proof.Machine
end

