-- ==== Sys2Proof/Machine/Resets.lean ====
section
/-! DEFINITION. The meanings of the commands of the lines, the supply and the resets (R134, R135, R162, R186). -/

namespace Sys2Proof.Machine

/-- MAINT_KEY_CHANGE: the MAINT_KEY line takes a level (R134). -/
def execMaintKeyChange (active : Bool) (s : State) : Host.Outcome State Fault Refusal :=
  s.onPart (fun p => p.setKey active)

/-- POWER_ON: the supply rises from off (R186). -/
def execPowerOn (s : State) : Host.Outcome State Fault Refusal :=
  s.onPart (fun p => p.beginReset .powerOn)

/-- RESET_LINE: the RESET line is asserted (R186). -/
def execResetLine (s : State) : Host.Outcome State Fault Refusal :=
  s.onPart (fun p => p.beginReset .resetLine)

/-- SUPPLY_LOW: the supply falls below 2.80 V (R135, R186). -/
def execSupplyLow (s : State) : Host.Outcome State Fault Refusal :=
  s.onPart (fun p => p.beginReset .supplyLow)

/-- SUPPLY_WARN_BEGIN: the supply falls below 2.95 V (R135). -/
def execSupplyWarnBegin (s : State) : Host.Outcome State Fault Refusal :=
  s.onPart (fun p => p.live Part.beginWarning)

/-- SUPPLY_WARN_END: the supply returns to 2.95 V or above (R135). -/
def execSupplyWarnEnd (s : State) : Host.Outcome State Fault Refusal :=
  s.onPart (fun p => p.live Part.endWarning)

/-- RESET_END: a reset ends (R162). -/
def execResetEnd (supplyWarn : Bool) (s : State) : Host.Outcome State Fault Refusal :=
  s.onPart (fun p => p.endReset supplyWarn)

end Sys2Proof.Machine
end

