-- ==== Sys2Proof/Machine/Dispatch.lean ====
section
/-! DEFINITION. `exec`: one arm for each command, each a direct call of its meaning. -/

namespace Sys2Proof.Machine

/-- The effect of a command on everything but the queue of waiting commands. -/
def exec (i : Instr) (s : State) : Host.Outcome State Fault Refusal :=
  match i with
  | .frameStart port => Sys2Proof.Machine.execFrameStart port s
  | .fragmentTimeout port => Sys2Proof.Machine.execFragmentTimeout port s
  | .frameDrop port rx => Sys2Proof.Machine.execFrameDrop port rx s
  | .cycleStart f => Sys2Proof.Machine.execCycleStart f s
  | .commandFrame f => Sys2Proof.Machine.execCommandFrame f s
  | .cinFrameForward f => Sys2Proof.Machine.execCinFrameForward f s
  | .reportFrame f => Sys2Proof.Machine.execReportFrame f s
  | .finFrameForward f => Sys2Proof.Machine.execFinFrameForward f s
  | .commandTransmit => Sys2Proof.Machine.execCommandTransmit s
  | .broadcastHoldFrame => Sys2Proof.Machine.execBroadcastHoldFrame s
  | .foutFrameTransmit => Sys2Proof.Machine.execFoutFrameTransmit s
  | .linkFaultFrame => Sys2Proof.Machine.execLinkFaultFrame s
  | .mgmtResponse => Sys2Proof.Machine.execMgmtResponse s
  | .coutUpstreamTransmit => Sys2Proof.Machine.execCoutUpstreamTransmit s
  | .eventFrame => Sys2Proof.Machine.execEventFrame s
  | .resetResponseSent => Sys2Proof.Machine.execResetResponseSent s
  | .ringTimeTick => Sys2Proof.Machine.execRingTimeTick s
  | .trapExpiry z => Sys2Proof.Machine.execTrapExpiry z s
  | .transitExpiry z => Sys2Proof.Machine.execTransitExpiry z s
  | .releaseTimer z => Sys2Proof.Machine.execReleaseTimer z s
  | .gapExpiry => Sys2Proof.Machine.execGapExpiry s
  | .switchTimer => Sys2Proof.Machine.execSwitchTimer s
  | .supervisionTimer z => Sys2Proof.Machine.execSupervisionTimer z s
  | .refusalExpiry z => Sys2Proof.Machine.execRefusalExpiry z s
  | .broadcastRepetition => Sys2Proof.Machine.execBroadcastRepetition s
  | .silenceTimer => Sys2Proof.Machine.execSilenceTimer s
  | .fieldLinkTimer => Sys2Proof.Machine.execFieldLinkTimer s
  | .linkFaultRepetition => Sys2Proof.Machine.execLinkFaultRepetition s
  | .maintKeyChange active => Sys2Proof.Machine.execMaintKeyChange active s
  | .powerOn => Sys2Proof.Machine.execPowerOn s
  | .resetLine => Sys2Proof.Machine.execResetLine s
  | .supplyLow => Sys2Proof.Machine.execSupplyLow s
  | .supplyWarnBegin => Sys2Proof.Machine.execSupplyWarnBegin s
  | .supplyWarnEnd => Sys2Proof.Machine.execSupplyWarnEnd s
  | .resetEnd supplyWarn => Sys2Proof.Machine.execResetEnd supplyWarn s
  | .identify tag args => Sys2Proof.Machine.execIdentify tag args s
  | .status tag args => Sys2Proof.Machine.execStatus tag args s
  | .clearFlags tag args => Sys2Proof.Machine.execClearFlags tag args s
  | .setModeRun tag args => Sys2Proof.Machine.execSetModeRun tag args s
  | .setModeMaint tag args => Sys2Proof.Machine.execSetModeMaint tag args s
  | .setModeConfig tag args => Sys2Proof.Machine.execSetModeConfig tag args s
  | .arm tag args => Sys2Proof.Machine.execArm tag args s
  | .restore tag args => Sys2Proof.Machine.execRestore tag args s
  | .stop tag args => Sys2Proof.Machine.execStop tag args s
  | .tableWrite tag args => Sys2Proof.Machine.execTableWrite tag args s
  | .tableRead tag args => Sys2Proof.Machine.execTableRead tag args s
  | .tablesErase tag args => Sys2Proof.Machine.execTablesErase tag args s
  | .queryZone tag args => Sys2Proof.Machine.execQueryZone tag args s
  | .queryTrain tag args => Sys2Proof.Machine.execQueryTrain tag args s
  | .overrideRelease tag args => Sys2Proof.Machine.execOverrideRelease tag args s
  | .reconcilePlace tag args => Sys2Proof.Machine.execReconcilePlace tag args s
  | .reconcileRemove tag args => Sys2Proof.Machine.execReconcileRemove tag args s
  | .reconcileClear tag args => Sys2Proof.Machine.execReconcileClear tag args s
  | .setDivert tag args => Sys2Proof.Machine.execSetDivert tag args s
  | .eventCtrl tag args => Sys2Proof.Machine.execEventCtrl tag args s
  | .countersRead tag args => Sys2Proof.Machine.execCountersRead tag args s
  | .countersClear tag args => Sys2Proof.Machine.execCountersClear tag args s
  | .healthRead tag args => Sys2Proof.Machine.execHealthRead tag args s
  | .healthReset tag args => Sys2Proof.Machine.execHealthReset tag args s
  | .reset tag args => Sys2Proof.Machine.execReset tag args s
  | .unknownRequest tag code args => Sys2Proof.Machine.execUnknownRequest tag code args s
  | .responseFull tag code args => Sys2Proof.Machine.execResponseFull tag code args s
  | .malformedMgmtRequest payload => Sys2Proof.Machine.execMalformedMgmtRequest payload s
  | .transmissionEnd port => Sys2Proof.Machine.execTransmissionEnd port s
  | .lineIdleAfterReset port => Sys2Proof.Machine.execLineIdleAfterReset port s

end Sys2Proof.Machine
end

