-- ==== Sys2Proof/Machine/Step.lean ====
section
/-! DEFINITION. The step of the model: the command at the front of the queue is taken and carried out. -/

namespace Sys2Proof.Machine

/-- Take the oldest waiting command and carry it out on the state with the rest of the queue.  With nothing waiting the
part idles (assumption log 4). -/
def step (s : State) : Host.Outcome State Fault Refusal :=
  match s.pending with
  | [] => .next s
  | c :: rest => exec c { s with pending := rest }

/-- The command that a word spells, put at the front of the queue; the state as it is where the word spells none. -/
def State.withFetchWord (s : State) (nbits w : Nat) : State :=
  match Sys2Proof.decodeTableWord nbits w with
  | none => s
  | some c => { s with pending := c :: s.pending }

end Sys2Proof.Machine
end

