-- ==== Sys2Proof/WellFormed.lean ====
section
/-! DEFINITION. Well-formed commands: the operands are ones with which the row's event can arise on the ring.  A frame
row holds a frame of its row's sort, with the types, lengths and addresses of R148, R149 and R188; a request row holds
arguments that fit a frame and that belong to its row. -/

namespace Sys2Proof

open Sys2Proof.Machine

/-- The payload fits a frame: at most 48 bytes (11.2). -/
def Frame.fits (f : Frame) : Bool := decide (f.payload.length ≤ 48)

/-- A MGMT_REQUEST to node 62 (R148). -/
def Frame.toManagement (f : Frame) : Bool := f.ftype == typeRequest && decide (addrOf f.dest = addrPart)

/-- A CYCLE_START of length 4 (R155, R188). -/
def Frame.isCycleStart (f : Frame) : Bool := f.ftype == typeCycleStart && (cycleTimeOf f).isSome

/-- A REPORT of a field node with a payload of its form (R149, R188). -/
def Frame.isReport (f : Frame) : Bool := f.ftype == typeReport && (reportOf f).isSome

/-- The arguments of a request fit a frame beside its tag and code (11.2). -/
def argsFit (args : List Byte) : Bool := decide (args.length ≤ 46)

/-- The code of a request has a definition: 01h to 15h (11.3). -/
def codeDefined (code : Byte) : Bool := decide (1 ≤ code.toNat) && decide (code.toNat ≤ 0x15)

/-- A frame that the checker drops (R146). -/
def dropsFrame (rx : List RxSymbol) : Bool :=
  match checkFrame rx with
  | .dropped _ => true
  | .intact _ => false

/-- The command is one that can arise. -/
def Instr.wf : Instr → Bool
  | .frameDrop _ rx => dropsFrame rx
  | .cycleStart f => f.fits && f.isCycleStart
  | .commandFrame f => f.fits && f.ftype == typeCommand
  | .cinFrameForward f => f.fits && !f.isCycleStart && f.ftype != typeCommand && !f.toManagement
  | .reportFrame f => f.fits && f.isReport
  | .finFrameForward f => f.fits && !f.isReport
  | .setModeRun _ args => argsFit args && args.head? != some 4 && args.head? != some 0
  | .setModeMaint _ args => argsFit args && args.head? == some 4
  | .setModeConfig _ args => argsFit args && args.head? == some 0
  | .reconcilePlace _ args => argsFit args && byteAt args 1 != 1 && byteAt args 1 != 2
  | .reconcileRemove _ args => argsFit args && byteAt args 1 == 1
  | .reconcileClear _ args => argsFit args && byteAt args 1 == 2
  | .unknownRequest _ code args => argsFit args && !codeDefined code
  | .responseFull _ _ args => argsFit args
  | .malformedMgmtRequest payload => decide (payload.length ≤ 1)
  | .identify _ args | .status _ args | .clearFlags _ args | .arm _ args | .restore _ args | .stop _ args
  | .tableWrite _ args | .tableRead _ args | .tablesErase _ args | .queryZone _ args | .queryTrain _ args
  | .overrideRelease _ args | .setDivert _ args | .eventCtrl _ args | .countersRead _ args | .countersClear _ args
  | .healthRead _ args | .healthReset _ args | .reset _ args => argsFit args
  | .frameStart _ | .fragmentTimeout _ | .commandTransmit | .broadcastHoldFrame | .foutFrameTransmit | .linkFaultFrame
  | .mgmtResponse | .coutUpstreamTransmit | .eventFrame | .resetResponseSent | .ringTimeTick | .trapExpiry _
  | .transitExpiry _ | .releaseTimer _ | .gapExpiry | .switchTimer | .supervisionTimer _ | .refusalExpiry _
  | .broadcastRepetition | .silenceTimer | .fieldLinkTimer | .linkFaultRepetition | .maintKeyChange _ | .powerOn
  | .resetLine | .supplyLow | .supplyWarnBegin | .supplyWarnEnd | .resetEnd _ | .transmissionEnd _
  | .lineIdleAfterReset _ => true

end Sys2Proof
end

