-- ==== Sys2Proof/Safety.lean ====
section
/-! DEFINITION. The words in which the statements about the part are made: when the part hears a frame or takes a request,
what a frame, a drop and a response leave behind, what a release of claims (R77) and a raised hold-all cause (R131) leave
behind, the checks of a frame (R146), of ARM (R12 to R14) and of a change of the mode (R128, R137) written out, the part at
its reset values, and the invariants that every step keeps. -/

namespace Sys2Proof

/-- The commands that act on a part in reset: the conditions of a reset, its end, and the key line (R162, R186). -/
def Instr.actsInReset : Instr → Bool
  | .powerOn | .resetLine | .supplyLow | .resetEnd _ | .maintKeyChange _ => true
  | _ => false

end Sys2Proof

namespace Sys2Proof.Machine

/-! ## What a command finds -/

/-- The part is out of reset. -/
def Part.isLive (p : Part) : Bool := !p.lines.inReset

/-- The part hears a frame on a port: it is out of reset and the port is RECEIVING (R145). -/
def Part.hears (p : Part) (port : InPort) : Bool := p.isLive && p.ring.rx port == .receiving

/-- The part takes a management request: it hears C-in, no RESET is pending and the response queue holds fewer than 8
responses (R163, R167). -/
def Part.takesRequest (p : Part) : Bool :=
  p.hears .cIn && !p.mgmt.resetPending && decide (p.mgmt.responses.length < 8)

/-- F-out is free for the front frame of the downstream queue: the part is out of reset, F-out is IDLE and no broadcast
hold injection is pending (R151). -/
def Part.foutFree (p : Part) : Bool := p.isLive && p.ring.fOut.isNone && !p.ring.bcastPending

/-- C-out is free and no LINK_FAULT frame is pending (R153). -/
def Part.coutFree (p : Part) : Bool := p.isLive && p.ring.cOut.isNone && !p.ring.linkFaultPending

/-- No expiry of a zone is due (R41, R42, R51, R52). -/
def Part.zoneQuiet (p : Part) (z : ZoneId) : Bool :=
  !isDue p.now (p.zone z).trapExpiry && !isDue p.now (p.zone z).transitExpiry && !isDue p.now (p.zone z).releaseTimer

/-- No expiry that a report may start is due, of the zones and of the gap: so it stands between any two steps, since every
step takes what it makes due (R51). -/
def Part.edgeQuiet (p : Part) : Bool := allZones.all p.zoneQuiet && !isDue p.now p.dsp.expiry

/-- No expiry of any block is due (R51). -/
def Part.nothingDue (p : Part) : Bool :=
  p.edgeQuiet && allZones.all (fun z => !isDue p.now (p.device z).timer) &&
    p.rs.requests.all (fun q => !isDue p.now q.refusal) &&
    !isDue p.now p.rs.timer && !isDue p.now p.ring.bcastTimer && !isDue p.now p.ring.silenceTimer &&
    !isDue p.now p.ring.linkTimer && !isDue p.now p.ring.repTimer

/-- The expiry commands, in the order in which a change of ring time takes the expiries that are due (R51, assumption
log 5). -/
def expiryCommands : List Instr :=
  allZones.flatMap (fun z => [.trapExpiry z, .transitExpiry z, .trapExpiry z, .releaseTimer z]) ++ [.gapExpiry] ++
    allZones.map .refusalExpiry ++ [.switchTimer] ++ allZones.map .supervisionTimer ++
    [.broadcastRepetition, .silenceTimer, .fieldLinkTimer, .linkFaultRepetition]

/-- Commands carried out one after the other. -/
def execAll : List Instr → State → Host.Outcome State Fault Refusal
  | [], s => .next s
  | c :: cs, s =>
    match exec c s with
    | .next t => execAll cs t
    | .fault x => .fault x
    | .refused x => .refused x

/-! ## What a report finds -/

/-- The part takes the frame `f` from F-in as the report `r` of a field node (R149). -/
abbrev Part.TakesReport (p : Part) (f : Frame) (r : Report) : Prop :=
  p.hears .fIn = true ∧ f.ftype = typeReport ∧ reportOf f = some r

/-- No hold device of a loaded zone is on node `n`. -/
def Part.NoDeviceOn (p : Part) (n : NodeId) : Prop :=
  ∀ (z : ZoneId) (rec : ZoneRec), p.store.zones[z] = some rec → rec.holdNode ≠ n

/-- No loaded switch is on node `n`. -/
def Part.NoSwitchOn (p : Part) (n : NodeId) : Prop :=
  ∀ (i : SwitchId) (rec : SwitchRec), p.store.switches[i] = some rec → rec.node ≠ n

/-- No loaded e-stop entry is on node `n`. -/
def Part.NoEstopOn (p : Part) (n : NodeId) : Prop :=
  ∀ (i : EntryId) (ref : SensorRef), p.store.estops[i] = some ref → ref.node ≠ n

/-- No ready input of a loaded zone is on node `n`. -/
def Part.NoReadyOn (p : Part) (n : NodeId) : Prop :=
  ∀ (z : ZoneId) (rec : ZoneRec), p.store.zones[z] = some rec → ∀ ref ∈ rec.ready, ref.node ≠ n

/-- The hold device of zone `z`, with the record `rec`, is the only one on its node. -/
def Part.OnlyDevice (p : Part) (z : ZoneId) (rec : ZoneRec) : Prop :=
  p.store.zones[z] = some rec ∧
    ∀ (w : ZoneId) (r : ZoneRec), p.store.zones[w] = some r → r.holdNode = rec.holdNode → w = z

/-- The edge counter of a report follows on the last one of its node, so that no edge was lost; a node without a last edge
counter has lost none (R45). -/
abbrev Part.CounterFollows (p : Part) (r : Report) : Prop :=
  p.cls.lastCounter[r.node].all (fun c => c + BitVec.ofNat 8 r.edges.length == r.counter) = true

/-- A report with no edge and none lost, at a time when nothing that a report may start is due: only its readings act. -/
abbrev Part.TakesReadings (p : Part) (f : Frame) (r : Report) : Prop :=
  p.TakesReport f r ∧ r.edges = [] ∧ (p.mc.mode = .config ∨ p.CounterFollows r) ∧ p.edgeQuiet = true

/-- A report outside CONFIG whose one edge `g`, with none lost, has this role in zone `z` with the record `rec` (R27). -/
abbrev Part.TakesEdge (p : Part) (f : Frame) (r : Report) (g : Edge) (z : ZoneId) (rec : ZoneRec) (role : Role) : Prop :=
  p.TakesReport f r ∧ r.edges = [g] ∧ p.mc.mode ≠ .config ∧ p.CounterFollows r ∧
    p.roleOf r.node g.ch = some (z, rec, role)

/-- The two lock inputs of a switch as the latest levels show them: the one of position `pos`, then the other (R74). -/
def Part.locksRead (p : Part) (rec : SwitchRec) (pos : Branch) : Bool × Bool :=
  let lockA := p.level { node := rec.node, ch := rec.lockA }
  let lockB := p.level { node := rec.node, ch := rec.lockB }
  if pos = .a then (lockA, lockB) else (lockB, lockA)

/-- E-stop entry `i` goes active in the report `r`: its level is active where its memory was not (R133). -/
def Part.EstopRises (p : Part) (r : Report) (i : EntryId) : Prop :=
  ∃ ref : SensorRef, p.store.estops[i] = some ref ∧ ref.node = r.node ∧ r.levels.getLsbD ref.ch.val = true ∧
    p.mc.estopMem[i] ≠ some true

/-- A report of node `n` starts and completes no route setting by itself: nothing is being set and no request waits, or what
is being set does not wait on a switch of the node, and the node has no ready input whose loss could end it (R68, R75,
R115). -/
def Part.NoRouteStarts (p : Part) (n : NodeId) : Prop :=
  (p.rs.setting = none ∧ p.rs.requests = []) ∨
    (p.rs.setting.isSome = true ∧ p.waitsOn n = false ∧ p.NoReadyOn n)

/-- The hold device of no loaded zone but `z` reads open, so no other zone can be released (R36). -/
def Part.OthersNotOpen (p : Part) (z : ZoneId) : Prop :=
  ∀ (w : ZoneId) (rec : ZoneRec), p.store.zones[w] = some rec → w ≠ z → p.openFb rec = false

/-! ## What refuses a change of the mode (R128, R137) -/

/-- Zone `z` fails the settle test: it is MOVING or RELEASING, or the head zone of a train that is LOST, or PRESENT and not
HELD there (R128; that a train is named by its head zone is assumption log 13). -/
abbrev Part.Restless (p : Part) (z : ZoneId) : Prop :=
  (p.zone z).state = .moving ∨ (p.zone z).state = .releasing ∨
    ∃ x, (p.train x).head = some z ∧
      ((p.train x).state = .lost ∨ (p.train x).state = .present ∧ (p.zone z).state ≠ .held)

/-- `i` is the lowest index with a property. -/
abbrev Lowest {n : Nat} (has : Fin n → Prop) (i : Fin n) : Prop := has i ∧ ∀ j, j < i → ¬has j

/-- Loaded e-stop entry `i` reads active in its memory (R133). -/
abbrev Part.EstopHeld (p : Part) (i : EntryId) : Prop := p.store.estops[i].isSome = true ∧ p.mc.estopMem[i] = some true

/-- Condition `code` is present, and CONDITION_PRESENT reports it with `byte` (11.3, R137): the lowest active e-stop entry, a
silent controller, a field link down, the supply warning, the lowest zone with a device fault latch set, the key. -/
abbrev Part.Reports (p : Part) (code : Nat) (byte : Byte) : Prop :=
  match code with
  | 0 => ∃ i, Lowest p.EstopHeld i ∧ byte = BitVec.ofNat 8 i.val
  | 1 => p.ring.silent = true ∧ byte = 0xFF
  | 2 => p.ring.linkDown = true ∧ byte = 0xFF
  | 3 => p.lines.supplyWarn = true ∧ byte = 0xFF
  | 4 => ∃ z, Lowest (fun z => (p.device z).latch = true) z ∧ byte = BitVec.ofNat 8 z.val
  | 5 => p.lines.maintKey = true ∧ byte = 0xFF
  | _ => False

/-- Condition `code` is the first of those below `bound` that is present: all six for RESTORE (R137), the five before the
key for SET_MODE(MAINT) (R127). -/
def Part.FirstReports (p : Part) (bound code : Nat) (byte : Byte) : Prop :=
  code < bound ∧ p.Reports code byte ∧ ∀ c, c < code → ∀ b, ¬p.Reports c b

/-! ## What a COMMAND finds -/

/-- Outside CONFIG, F-out is free for the COMMAND `c` in the frame `f`, which the others in `rest` follow (R92, R151). -/
abbrev Part.TakesCommand (p : Part) (f : Frame) (rest : List Frame) (c : Command) : Prop :=
  p.foutFree = true ∧ p.ring.down = f :: rest ∧ f.ftype = typeCommand ∧ commandOf f = some c ∧ p.mc.mode ≠ .config

/-- The COMMAND goes to a node of class HOLD, on which the device of zone `z`, with the record `rec`, is the only one. -/
def Part.TakesHoldCommand (p : Part) (f : Frame) (rest : List Frame) (c : Command) (z : ZoneId) (rec : ZoneRec) : Prop :=
  p.TakesCommand f rest c ∧ nodeOf f.dest = some rec.holdNode ∧ p.store.nodes[rec.holdNode] = some .hold ∧
    p.OnlyDevice z rec

/-! ## What the checks of a frame find (R145, R146) -/

/-- One of the stored bytes has failed odd parity: with its parity bit it holds an even number of ones.  A port stores at most
54 bytes (R145, check 1 of R146). -/
abbrev ParityFails (rx : List RxSymbol) : Prop :=
  ∃ x ∈ rx.take 54,
    ((List.range 8).countP (fun i => x.data.getLsbD i) + (if x.parity then 1 else 0)) % 2 = 0

/-- The length field, the fourth byte of the frame; absent in a frame too short to hold it. -/
def lengthField (rx : List RxSymbol) : Option Byte := rx[3]?.map RxSymbol.data

/-- The frame holds a length field above 48 (check 2 of R146). -/
abbrev LengthOutOfRange (rx : List RxSymbol) : Prop := ∃ n ∈ lengthField rx, 48 < n.toNat

/-- The frame is too short for its header of 4 bytes and its CRC of 2, or the number of its payload bytes is not its length
field (check 3 of R146). -/
abbrev LengthDiffers (rx : List RxSymbol) : Prop :=
  rx.length < 6 ∨ ∃ n ∈ lengthField rx, rx.length ≠ 4 + n.toNat + 2

/-- The last two bytes are not the CRC of those before them, high byte first (check 4 of R146). -/
abbrev CrcDiffers (rx : List RxSymbol) : Prop :=
  let bytes := rx.map RxSymbol.data
  bytes.drop (bytes.length - 2) ≠ be16 (crc16 (bytes.take (bytes.length - 2)))

/-- The check that drops a frame: the first of the four that fails (R146). -/
abbrev DroppedFor (rx : List RxSymbol) : DropReason → Prop
  | .parity => ParityFails rx
  | .lengthRange => ¬ParityFails rx ∧ LengthOutOfRange rx
  | .lengthMismatch => ¬ParityFails rx ∧ ¬LengthOutOfRange rx ∧ LengthDiffers rx
  | .crc => ¬ParityFails rx ∧ ¬LengthOutOfRange rx ∧ ¬LengthDiffers rx ∧ CrcDiffers rx
  | .fragment => False

/-! ## What a frame, a drop and a response leave behind -/

/-- An intact frame has been taken from a port: the port is IDLE and its received counter has risen by 1 (R145, R179). -/
def Part.frameTaken (p : Part) (port : InPort) : Part :=
  match port with
  | .cIn =>
    { p with ring := { p.ring with cIn := .idle }
             cnt := { p.cnt with cIn := { p.cnt.cIn with received := p.cnt.cIn.received + 1 } } }
  | .fIn =>
    { p with ring := { p.ring with fIn := .idle }
             cnt := { p.cnt with fIn := { p.cnt.fIn with received := p.cnt.fIn.received + 1 } } }

/-- The cycle period P as ticks of ring time, `k` of them (R11). -/
def Part.periods (p : Part) (k : Nat) : RingTime := BitVec.ofNat 32 (p.store.params.cyclePeriod.toNat * 10 * k)

/-- An outage of the field link, if there is one, has ended (R159). -/
def Part.linkRestored (p : Part) : Part :=
  if p.ring.linkDown then
    { p with ring :=
      { p.ring with linkDown := false, repTimer := none, linkFaultPending := false
                    linkTimer := some (p.ring.ringTime + p.periods 2) } }
  else p

/-- The part with what every report `r` sets, before its edges and readings: the frame taken, the link up, and the levels and
the last edge counter of its node (R26, R45, R159). -/
def Part.reportRead (p : Part) (r : Report) : Part :=
  { (p.frameTaken .fIn).linkRestored with
    cls := { levels := p.cls.levels.set r.node (some r.levels)
             lastCounter := p.cls.lastCounter.set r.node (some r.counter) } }

/-- A frame from C-in has joined the downstream queue, or a full queue has refused and counted it (R150). -/
def Part.joinedDown (p : Part) (f : Frame) : Part :=
  if p.ring.down.length < 16 then { p with ring := { p.ring with down := p.ring.down ++ [f] } }
  else { p with cnt := { p.cnt with cIn := { p.cnt.cIn with queueFull := p.cnt.cIn.queueFull + 1 } } }

/-- A frame from F-in has joined the upstream queue, or a full queue has refused and counted it (R150). -/
def Part.joinedUp (p : Part) (f : Frame) : Part :=
  if p.ring.up.length < 16 then { p with ring := { p.ring with up := p.ring.up ++ [f] } }
  else { p with cnt := { p.cnt with fIn := { p.cnt.fIn with queueFull := p.cnt.fIn.queueFull + 1 } } }

/-- A frame has been dropped on a port under a reason (R146, R147): the counter of the reason has risen by 1 and
FRAME_ERROR is set; on C-in the precedence record is empty and in CONFIG the load is tainted. -/
def Part.afterDrop (p : Part) (port : InPort) (reason : DropReason) : Part :=
  match port with
  | .cIn =>
    { p with cnt := { p.cnt with cIn := p.cnt.cIn.countDrop reason }
             mgmt := { p.mgmt with frameError := true, precedence := none
                                   loadTainted := p.mgmt.loadTainted || p.mc.mode == .config } }
  | .fIn =>
    { p with cnt := { p.cnt with fIn := p.cnt.fIn.countDrop reason }, mgmt := { p.mgmt with frameError := true } }

/-- A request has been answered (R163, R165, R166): its response stands at the back of the response queue and the
precedence record names it, with the zone argument of a QUERY_ZONE (code 0Bh). -/
def Part.responded (p : Part) (tag code : Byte) (args : List Byte) (result : Result) (data : List Byte) : Part :=
  { p with mgmt :=
      { p.mgmt with
        responses := p.mgmt.responses ++ [{ tag := tag, code := code, result := result, data := data }]
        precedence := some { code := code, zone := if code = 0x0B then args.head? else none
                             success := decide (result = .success) } } }

/-- A frame begins on F-out from the downstream queue, which it leaves with `rest` waiting (R151, R179). -/
def Part.sentFout (p : Part) (f : Frame) (rest : List Frame) (overridden : Bool) : Part :=
  { p with ring := { p.ring with fOut := some f, down := rest }
           cnt := { p.cnt with fOut :=
              { p.cnt.fOut with forwarded := p.cnt.fOut.forwarded + 1
                                overridden := if overridden then p.cnt.fOut.overridden + 1 else p.cnt.fOut.overridden } } }

/-- A frame begins on C-out (R153, R179). -/
def Part.sentCout (p : Part) (f : Frame) (isReset : Bool) : Part :=
  { p with ring := { p.ring with cOut := some { frame := f, isReset := isReset } }
           cnt := { p.cnt with cOutForwarded := p.cnt.cOutForwarded + 1 } }

/-- A mode is left for another by SET_MODE, RESTORE or ARM: HEALTHY follows the mode and MODE_CHANGED is queued (R126,
R129). -/
def Part.modeMade (p : Part) (m : Mode) : Part :=
  { p with mc := { p.mc with mode := m, healthy := m.running }
           mgmt := p.mgmt.queueEvent p.ring.ringTime none none (.modeChanged p.mc.mode m) }

/-- The hold-all latch is clear with its causes, and no injection is pending or repeated (R130, R152). -/
def Part.latchCleared (p : Part) : Part :=
  { p with mc := { p.mc with latch := false, causes := [], first := none }
           ring := { p.ring with bcastPending := false, bcastTimer := none } }

/-- A device with these two feedback inputs matches a value (R98). -/
def HoldValue.matched (v : HoldValue) (opn closed : Bool) : Bool := opn == (v == .release) && closed == (v == .hold)

/-- A device record once its forwarded value is `v` at ring time `now`, its feedback inputs reading `opn` and `closed`, with
a feedback limit in ticks (R99, and R102 for a FAULTED device). -/
def DeviceRec.forwards (d : DeviceRec) (v : HoldValue) (opn closed : Bool) (now limit : RingTime) : DeviceRec :=
  if d.forwarded = some v then d
  else
    let changed := { d with forwarded := some v, changeTime := some now }
    if d.sup = .faulted then
      if v = .hold ∧ v.matched opn closed = true then { changed with latch := false, sup := .settled } else changed
    else if v.matched opn closed then { changed with sup := .settled, timer := none }
    else { changed with sup := .awaiting, timer := some (now + limit) }

/-- A device record after a report of its hold node at ring time `now`, by the table of R100 and the latch test of R102. -/
def DeviceRec.reported (d : DeviceRec) (opn closed : Bool) (now limit : RingTime) : DeviceRec :=
  let good := d.forwarded.any (fun v => v.matched opn closed)
  let settled := { d with sup := .settled, timer := none }
  match d.sup with
  | .unsupervised => d
  | .settled => if good then d else { d with sup := .deviating, timer := some (now + limit) }
  | .awaiting | .deviating => if good then settled else d
  | .faulted => if d.forwarded = some .hold ∧ good = true then { d with latch := false, sup := .settled } else d

/-- The feedback limit of a zone as ticks of ring time (R98). -/
def ZoneRec.feedbackLimit (rec : ZoneRec) : RingTime := BitVec.ofNat 32 (rec.fbLimit.toNat * 10)

/-- A count of 16 bits that rises by 1 and saturates (R181, R182). -/
def risen (v : BitVec 16) : BitVec 16 := if v = 0xFFFF then 0xFFFF else v + 1

/-- Flank and switch claims that complete at once when they are executed one after the other: each is claimable, no switch
is claimed twice, and every switch reads locked in the position asked for (R70, R73, R74). -/
structure Part.ClaimsMet (p : Part) (cs : List Claim) : Prop where
  locks : ∀ w, Claim.reserve w ∉ cs
  claimable : ∀ c ∈ cs, p.claimable c = true
  apart : cs.Pairwise (fun c d => ∀ n pos pos', c = .switch n pos → d ≠ .switch n pos')
  locked : ∀ n pos i rec, Claim.switch n pos ∈ cs → p.switchOf n = some i → p.store.switches[i] = some rec →
    p.locksRead rec pos = (true, false)

/-- What the last claims `more` of a setting and its completion make of `p` (R73, R74, R78): for zone `z` with the record
`rec` and train `x`, by branch `br` to `sz`, a SET route that holds the locks `held` and `more`, an OPEN permit, ROUTE_SET
queued, the request gone and the Route Setter idle. -/
structure Part.RouteMade (p q : Part) (z : ZoneId) (rec : ZoneRec) (x : TrainId) (br : Branch) (sz : ZoneId)
    (held more : List Claim) : Prop where
  idle : q.rs.setting = none ∧ q.rs.stack = [] ∧ q.rs.timer = none
  requests : q.rs.requests = p.rs.requests.filter (fun r => r.zone != z)
  routes : q.rs.routes =
    p.rs.routes ++ [{ zone := z, train := x, branch := br, succ := sz, locks := held ++ more, phase := .set }]
  devices : q.devices = p.devices.set z { p.device z with permit := .opened }
  zones : ∀ w, q.zone w =
    { p.zone w with
      flank := (p.zone w).flank + more.count (.flank w)
      lastBranch := if w = z ∧ rec.rule = .alternate ∧ rec.succB.isSome = true then br else (p.zone w).lastBranch }
  trains : ∀ y, q.train y =
    { p.train y with divert := if y = x ∧ rec.rule = .divert ∧ br = .b then false else (p.train y).divert }
  claimed : ∀ n pos i, Claim.switch n pos ∈ more → p.switchOf n = some i →
    q.switch i = { p.switch i with commanded := some pos, holders := (p.switch i).holders + 1 }
  unclaimed : ∀ i, (∀ n pos, Claim.switch n pos ∈ more → p.switchOf n ≠ some i) → q.switch i = p.switch i
  records : q.mgmt = p.mgmt.queueEvent p.ring.ringTime (some z) (some x) (.routeSet br)
  mode : q.mc = p.mc
  ring : q.ring = p.ring
  lines : q.lines = p.lines
  store : q.store = p.store
  classifier : q.cls = p.cls
  dispatch : q.dsp = p.dsp
  counters : q.cnt = p.cnt

/-- What claims `more`, flanks and switches taken one after the other, make of the zones, trains and switches (R73, R74). -/
structure Part.ClaimsTaken (p q : Part) (more : List Claim) : Prop where
  zones : ∀ w, q.zone w = { p.zone w with flank := (p.zone w).flank + more.count (.flank w) }
  trains : ∀ y, q.train y = p.train y
  claimed : ∀ n pos i, Claim.switch n pos ∈ more → p.switchOf n = some i →
    q.switch i = { p.switch i with commanded := some pos, holders := (p.switch i).holders + 1 }
  unclaimed : ∀ i, (∀ n pos, Claim.switch n pos ∈ more → p.switchOf n ≠ some i) → q.switch i = p.switch i

/-- A setting changes nothing but the zones, trains, switches, requests and records, and its own progress (R73 to R76). -/
structure Part.SettingKeeps (p q : Part) : Prop where
  routes : q.rs.routes = p.rs.routes
  devices : q.devices = p.devices
  mode : q.mc = p.mc
  ring : q.ring = p.ring
  lines : q.lines = p.lines
  store : q.store = p.store
  classifier : q.cls = p.cls
  dispatch : q.dsp = p.dsp
  counters : q.cnt = p.cnt

/-- Zone `sz` is RESERVED for train `x` (R39, R73). -/
def Part.reservedFor (p : Part) (sz : ZoneId) (x : TrainId) : Part :=
  (p.modZone sz (fun d => { d with state := .reserved, occupant := some x, epoch := d.epoch + 1 })).modTrain x
    (fun t => { t with reserved := some sz })

/-- The branch an override takes, and the successor it leads to (R71, testing only the successor zones, R141). -/
def Part.overrideWay (p : Part) (z : ZoneId) (rec : ZoneRec) (x : TrainId) : Branch × Option ZoneId :=
  let br : Branch :=
    if rec.succB = none then .a
    else
      match rec.rule with
      | .fixedA => .a
      | .alternate => if (p.zone z).lastBranch = .a then .b else .a
      | .divert => if (p.train x).divert then .b else .a
      | .firstFree => if (p.zone rec.succA).state = .free ∧ (p.zone rec.succA).flank = 0 then .a else .b
  (br, if br = .a then some rec.succA else rec.succB)

/-- Check 6 of R141 is met: loaded zone `z` is HELD by train `x`, or a FAULT zone that names it, it is the head zone of `x`,
no route leads out of it, and the override's branch `br` leads to the FREE zone `sz` that no route protects. -/
structure Part.MayOverride (p : Part) (z : ZoneId) (rec : ZoneRec) (x : TrainId) (br : Branch) (sz : ZoneId) : Prop where
  loaded : p.store.zones[z] = some rec
  state : (p.zone z).state = .held ∨ (p.zone z).state = .fault
  occupant : (p.zone z).occupant = some x
  head : (p.train x).head = some z
  noRoute : ∀ r ∈ p.rs.routes, r.zone ≠ z
  way : p.overrideWay z rec x = (br, some sz)
  free : (p.zone sz).state = .free
  flank : (p.zone sz).flank = 0

/-- Zone `z`, with the record `rec`, as it enters RELEASING at `t` (R37). -/
def ZoneDyn.releasingFrom (d : ZoneDyn) (rec : ZoneRec) (t : RingTime) : ZoneDyn :=
  let limit := t + BitVec.ofNat 32 (rec.tClear.toNat * 10)
  { d with state := .releasing, epoch := d.epoch + 1, deadline := some limit, releaseTimer := some limit, reason := none
           remainder := none, pauseMark := false, transitExpiry := none, trapExpiry := none
           trap := if d.trap = .pending then .none else d.trap }

/-! ## What a release of claims leaves behind (R39, R77, R82, R83) -/

/-- The claims that an active route holds, each with the train it is held for (R80). -/
def ActiveRoute.claims (r : ActiveRoute) : List (TrainId × Claim) :=
  (r.train, .reserve r.succ) :: r.locks.map (fun c => (r.train, c))

/-- The claims on the stack of the setting in progress, each with the train it is held for (R72). -/
def Part.stacked (p : Part) : List (TrainId × Claim) :=
  match p.rs.setting with
  | none => []
  | some s => p.rs.stack.map (fun c => (s.train, c))

/-- A release of the claims `gone` frees zone `w`: it is RESERVED for a train whose RESERVE of it is among them (R39). -/
def Part.freedBy (p : Part) (gone : List (TrainId × Claim)) (w : ZoneId) : Bool :=
  (p.zone w).state == .reserved && gone.any (fun g => g.2 == .reserve w && (p.zone w).occupant == some g.1)

/-- How many of the claims `gone` are a FLANK claim on zone `w`. -/
def flanksOn (gone : List (TrainId × Claim)) (w : ZoneId) : Nat := gone.countP (fun g => g.2 == .flank w)

/-- How many of the claims `gone` are a SWITCH claim on switch `i`. -/
def Part.holdsOn (p : Part) (gone : List (TrainId × Claim)) (i : SwitchId) : Nat :=
  gone.countP (fun g =>
    match g.2 with
    | .switch n _ => p.switchOf n == some i
    | .reserve _ | .flank _ => false)

/-- What a release of the claims `gone` makes of the zones, trains and switches of `p`, whole: a zone still RESERVED is FREE
and its train has no reserved zone, every flank and holder count falls by the claims on it, a switch keeps its position, and a
switch that nobody holds any longer loses its lock-loss mark (R39, R77, R86, R87). -/
structure Part.ClaimsFreed (p q : Part) (gone : List (TrainId × Claim)) : Prop where
  zones : ∀ w, q.zone w =
    { (if p.freedBy gone w then
        { ZoneDyn.reset with
          state := .free, epoch := (p.zone w).epoch + 1, lastBranch := (p.zone w).lastBranch }
      else p.zone w) with flank := (p.zone w).flank - flanksOn gone w }
  trains : ∀ x, q.train x =
    { p.train x with
      reserved := if allZones.any (fun w => p.freedBy gone w && (p.zone w).occupant == some x) then none
        else (p.train x).reserved }
  switches : ∀ i, q.switch i =
    { p.switch i with
      holders := (p.switch i).holders - p.holdsOn gone i
      lockLost := (p.switch i).lockLost &&
        (p.holdsOn gone i == 0 || decide (p.holdsOn gone i < (p.switch i).holders)) }

/-- A setting has been ended without a route: its claims `gone` are released, the Route Setter is IDLE, `requests` are
queued and the records are `records` (R73, R76, R77). -/
structure Part.SettingUndone (p q : Part) (gone : List (TrainId × Claim)) (requests : List Request) (records : Mgmt) :
    Prop where
  idle : q.rs.setting = none ∧ q.rs.stack = [] ∧ q.rs.timer = none
  requests : q.rs.requests = requests
  freed : p.ClaimsFreed q gone
  records : q.mgmt = records
  kept : p.SettingKeeps q

/-- The claims that a hold-all releases: those of the SET routes and of the setting in progress (steps 5 and 6 of R131). -/
def Part.heldAllClaims (p : Part) : List (TrainId × Claim) :=
  (p.rs.routes.filter (fun r => r.phase == .set)).flatMap ActiveRoute.claims ++ p.stacked

/-- The claims that a tracking fault in zone `z` releases, with those of the hold-all it raises: those of every route out of
`z`, of the SET routes and of the setting in progress (step 5 of R43). -/
def Part.faultClaims (p : Part) (z : ZoneId) : List (TrainId × Claim) :=
  (p.rs.routes.filter (fun r => r.zone == z || r.phase == .set)).flatMap ActiveRoute.claims ++ p.stacked

/-! ## The twenty checks of ARM (R12 to R14) -/

/-- A slot of the table is loaded with a record that has a property. -/
abbrev SlotHas {α : Type} {n : Nat} (table : Vector (Option α) n) (has : Fin n → α → Prop) (i : Fin n) : Prop :=
  ∃ r ∈ table[i], has i r

/-- The lowest bad record of a table has this index byte. -/
def LowestBad {α : Type} {n : Nat} (table : Vector (Option α) n) (bad : Fin n → α → Prop) (index : Byte) : Prop :=
  ∃ i, Lowest (SlotHas table bad) i ∧ index = BitVec.ofNat 8 i.val

/-- Node `n` is of no class that may carry a sensor (check 5). -/
abbrev Store.NoInputClass (t : Store) (n : NodeId) : Prop :=
  t.nodes[n] ≠ some .sensor ∧ t.nodes[n] ≠ some .hold ∧ t.nodes[n] ≠ some .stationIo

/-- The track sensors of a zone: TRAP_A, TRAP_B when present, STOP, CLEAR. -/
def ZoneRec.trackSensors (r : ZoneRec) : List SensorRef := r.trapA :: (r.trapB.toList ++ [r.stop, r.clear])

/-- Every use of an input with the table code and index of its record, in the scan order of check 6. -/
def Store.inputUses (t : Store) : List (SensorRef × Byte × Byte) :=
  (allZones.flatMap (fun z => t.zones[z].toList.flatMap (fun r =>
    ({ node := r.holdNode, ch := r.openFb } :: { node := r.holdNode, ch := r.closedFb } :: (r.trackSensors ++ r.ready)).map
      (fun input => (input, 2, BitVec.ofNat 8 z.val))))) ++
  (allSwitches.flatMap (fun i => t.switches[i].toList.flatMap (fun r =>
    [{ node := r.node, ch := r.lockA }, { node := r.node, ch := r.lockB }].map
      (fun input => (input, 4, BitVec.ofNat 8 i.val))))) ++
  (allEntries.flatMap (fun i => t.estops[i].toList.map (fun input => (input, 6, BitVec.ofNat 8 i.val))))

/-- The CLEAR of a zone is not on the TRAP_A node of zone `s` (check 8). -/
abbrev Store.ClearElsewhere (t : Store) (r : ZoneRec) (s : ZoneId) : Prop :=
  ∀ next ∈ t.zones[s], r.clear.node ≠ next.trapA.node

/-- Zone `sz` is the successor of a route: successor A of its zone for branch A, successor B for branch B (R13). -/
abbrev Store.LeadsTo (t : Store) (r : RouteRec) (sz : ZoneId) : Prop :=
  ∃ zone ∈ t.zones[r.zone], r.branch = .a ∧ zone.succA = sz ∨ r.branch = .b ∧ zone.succB = some sz

/-- A route for zone `z` and this branch is loaded. -/
abbrev Store.RouteLoaded (t : Store) (z : ZoneId) (br : Branch) : Prop :=
  ∃ i : RouteId, ∃ r ∈ t.routes[i], r.zone = z ∧ r.branch = br

/-- The zone that a claim names. -/
def Claim.zoneNamed : Claim → Option ZoneId
  | .reserve z | .flank z => some z
  | .switch _ _ => none

/-- The switch node that a claim names. -/
def Claim.nodeNamed : Claim → Option NodeId
  | .reserve _ | .flank _ => none
  | .switch n _ => some n

/-- The tables refer to node `n` (R14). -/
abbrev Store.Refers (t : Store) (n : NodeId) : Prop :=
  (∃ z : ZoneId, ∃ r ∈ t.zones[z], r.holdNode = n ∨ ∃ ref ∈ r.trackSensors ++ r.ready, ref.node = n) ∨
    (∃ i : SwitchId, ∃ r ∈ t.switches[i], r.node = n) ∨ ∃ i : EntryId, ∃ ref ∈ t.estops[i], ref.node = n

/-- Validation check `code` fails, and the record it reports has this table code and index (R12, R13, R14). -/
def Part.CheckFails (p : Part) (code : Nat) (table index : Byte) : Prop :=
  let t := p.store
  let zone := fun (bad : ZoneId → ZoneRec → Prop) => table = 2 ∧ LowestBad t.zones bad index
  let route := fun (bad : RouteId → RouteRec → Prop) => table = 3 ∧ LowestBad t.routes bad index
  let switch := fun (bad : SwitchId → SwitchRec → Prop) => table = 4 ∧ LowestBad t.switches bad index
  let placement := fun (bad : EntryId → Placement → Prop) => table = 5 ∧ LowestBad t.placement bad index
  let estop := fun (bad : EntryId → SensorRef → Prop) => table = 6 ∧ LowestBad t.estops bad index
  let misplaced := fun (_ : ZoneId) (r : ZoneRec) => ∃ ref ∈ r.trackSensors ++ r.ready, t.NoInputClass ref.node
  let notStopped := fun (_ : EntryId) (r : Placement) => ∀ named ∈ t.zones[r.zone], p.level named.stop = false
  match code with
  -- 1 to 9: zones, sensors and switches
  | 1 => table = 2 ∧ index = 0 ∧ ∀ z : ZoneId, t.zones[z] = none
  | 2 => zone (fun _ r => t.zones[r.succA] = none ∨ ∃ b ∈ r.succB, t.zones[b] = none)
  | 3 => zone (fun _ r => t.nodes[r.holdNode] ≠ some .hold)
  | 4 => zone (fun z r => ∃ w, w < z ∧ SlotHas t.zones (fun _ o => o.holdNode = r.holdNode ∧ o.holdCh = r.holdCh) w)
  | 5 => zone misplaced ∨ (∀ z, ¬SlotHas t.zones misplaced z) ∧ estop (fun _ ref => t.NoInputClass ref.node)
  | 6 =>
    ∃ k < t.inputUses.length, ∃ use ∈ t.inputUses[k]?, use.2 = (table, index) ∧
      use.1 ∈ (t.inputUses.take k).map Prod.fst ∧ ((t.inputUses.take k).map Prod.fst).Nodup
  | 7 => zone (fun _ r => ∃ b ∈ r.trapB, b.node ≠ r.trapA.node)
  | 8 => zone (fun _ r => t.ClearElsewhere r r.succA ∨ ∃ b ∈ r.succB, t.ClearElsewhere r b)
  | 9 =>
    switch (fun i r => t.nodes[r.node] ≠ some .switch ∨ ∃ j, j < i ∧ SlotHas t.switches (fun _ o => o.node = r.node) j)
  -- 10 to 16: routes
  | 10 => route (fun _ r => ∀ sz, ¬t.LeadsTo r sz)
  | 11 => route (fun i r => ∃ j, j < i ∧ SlotHas t.routes (fun _ o => o.zone = r.zone ∧ o.branch = r.branch) j)
  | 12 => zone (fun z r => ¬t.RouteLoaded z .a ∨ r.succB.isSome = true ∧ ¬t.RouteLoaded z .b)
  | 13 => route (fun _ r => r.claims = [])
  | 14 =>
    route (fun _ r => ¬∃ sz, r.claims.head? = some (.reserve sz) ∧ t.LeadsTo r sz ∧ ∀ w, Claim.reserve w ∉ r.claims.tail)
  | 15 =>
    route (fun _ r =>
      (∃ f, Claim.flank f ∈ r.claims ∧ (t.zones[f] = none ∨ f = r.zone ∨ t.LeadsTo r f)) ∨
        ¬(r.claims.filterMap Claim.zoneNamed).Nodup ∨ ¬(r.claims.filterMap Claim.nodeNamed).Nodup)
  | 16 => route (fun _ r => ∃ c ∈ r.claims, ∃ n ∈ c.nodeNamed, ∀ i, ¬SlotHas t.switches (fun _ o => o.node = n) i)
  -- 17 to 20: the placement list and the ring
  | 17 =>
    placement (fun i r => ∃ j, j < i ∧ SlotHas t.placement (fun _ o => o.train = r.train ∨ o.zone = r.zone) j)
  | 18 => placement (fun _ r => ∀ named ∈ t.zones[r.zone], named.inService = false)
  | 19 =>
    table = 1 ∧ ∃ n, Lowest (fun n : NodeId => t.Refers n ∧ p.cls.levels[n] = none) n ∧ index = BitVec.ofNat 8 (n.val + 1)
  | 20 =>
    placement notStopped ∨ (∀ i, ¬SlotHas t.placement notStopped i) ∧
      zone (fun z r => (∀ i, ¬SlotHas t.placement (fun _ o => o.zone = z) i) ∧ ∃ ref ∈ r.trackSensors, p.level ref = true)
  | _ => False

/-! ## What a raised cause leaves behind (R131) -/

/-- The ride is held: the state in which every raise outside CONFIG leaves the part. -/
structure Part.HeldAll (q : Part) (c : Cause) : Prop where
  stopped : q.mc.mode = .stopped
  latched : q.mc.latch = true
  cause : c ∈ q.mc.causes
  permits : ∀ z, (q.device z).permit = .hold
  injection : q.ring.bcastPending = true
  idle : q.rs.setting = none
  noRequests : q.rs.requests = []
  committed : ∀ r ∈ q.rs.routes, r.phase = .committed

/-- What tracking keeps of the zones and trains when SET routes and settings are undone: a zone that was not RESERVED
keeps all but its flank count, a train all but its reserved zone. -/
structure Part.TrackKept (p q : Part) : Prop where
  zones : ∀ z, (p.zone z).state ≠ .reserved → { q.zone z with flank := (p.zone z).flank } = p.zone z
  trains : ∀ x, { q.train x with reserved := (p.train x).reserved } = p.train x

/-- The event queue and its numbers after a raise from `p`: HOLD_ALL, then MODE_CHANGED if the mode changed (R131). -/
def Part.mgmtAfterRaise (p : Part) (c : Cause) (entry : Option EntryId) : Mgmt :=
  let m := p.mgmt.queueEvent p.ring.ringTime none none (.holdAll c (!p.mc.latch) entry)
  if p.mc.mode.mayRelease then m.queueEvent p.ring.ringTime none none (.modeChanged p.mc.mode .stopped) else m

/-- `q` is what one raise of `c` makes of `p`, whole (R131): its effects, and everything it leaves as it was. -/
structure Part.RaisedTo (p q : Part) (c : Cause) : Prop where
  held : q.HeldAll c
  causes : ∀ x, x ∈ q.mc.causes ↔ x = c ∨ x ∈ p.mc.causes
  mode : q.mc =
    { p.mc with mode := .stopped, latch := true, causes := q.mc.causes
                first := if p.mc.latch then p.mc.first else some c
                healthy := if p.mc.mode.mayRelease then false else p.mc.healthy }
  ring : q.ring =
    { p.ring with bcastPending := true
                  bcastTimer := if p.mc.latch then p.ring.bcastTimer else some (p.ring.ringTime + p.periods 1) }
  routes : q.rs.routes = p.rs.routes.filter (fun r => r.phase == .committed)
  devices : ∀ z, q.device z = { p.device z with permit := .hold }
  records : q.mgmt = p.mgmtAfterRaise c none
  tracking : p.TrackKept q
  claims : p.ClaimsFreed q p.heldAllClaims
  lines : q.lines = p.lines
  store : q.store = p.store
  classifier : q.cls = p.cls
  dispatch : q.dsp = p.dsp
  counters : q.cnt = p.cnt

/-- Steps 1 to 3 of R43: zone `z`, which names train `x`, is FAULT with every timer cancelled; where it is the tail zone of
`x` it names no train, and `x` no tail zone. -/
def Part.zoneFaulted (p : Part) (z : ZoneId) (x : TrainId) (reason : FaultReason) : Part :=
  (p.modZone z (fun d =>
    { d with state := .fault, occupant := if (p.train x).tail = some z then none else some x, epoch := d.epoch + 1
             reason := some reason, deadline := none, remainder := none, pauseMark := false, trap := .none
             trapExpiry := none, transitExpiry := none, releaseTimer := none })).modTrain x
    (fun t => { t with tail := if t.tail = some z then none else t.tail })

/-- `q` is what a tracking fault with this reason in zone `z`, which names train `x`, makes of `p` outside CONFIG (R43): the
zone is FAULT with every timer cancelled, it keeps its train unless it is that train's tail zone, the routes out of it are
gone, TRACKING_FAULT is queued at `t`, and the cause TRACKING holds the ride; the state of `x` is left to the caller. -/
structure Part.FaultedTo (p q : Part) (z : ZoneId) (x : TrainId) (reason : FaultReason) (t : RingTime) : Prop where
  held : q.HeldAll .tracking
  causes : ∀ c, c ∈ q.mc.causes ↔ c = .tracking ∨ c ∈ p.mc.causes
  mode : q.mc =
    { p.mc with mode := .stopped, latch := true, causes := q.mc.causes
                first := if p.mc.latch then p.mc.first else some .tracking
                healthy := if p.mc.mode.mayRelease then false else p.mc.healthy }
  zone : q.zone z =
    { p.zone z with
      state := .fault, occupant := if (p.train x).tail = some z then none else some x, epoch := (p.zone z).epoch + 1
      reason := some reason, deadline := none, remainder := none, pauseMark := false, trap := .none
      trapExpiry := none, transitExpiry := none, releaseTimer := none, flank := (q.zone z).flank }
  zones : ∀ w, w ≠ z → (p.zone w).state ≠ .reserved → { q.zone w with flank := (p.zone w).flank } = p.zone w
  train : { q.train x with reserved := (p.train x).reserved, state := (p.train x).state } =
    { p.train x with tail := if (p.train x).tail = some z then none else (p.train x).tail }
  trains : ∀ y, y ≠ x → { q.train y with reserved := (p.train y).reserved } = p.train y
  claims : ((p.zoneFaulted z x reason).modTrain x (fun r => { r with state := (q.train x).state })).ClaimsFreed q
    (p.faultClaims z)
  routes : q.rs.routes = p.rs.routes.filter (fun r => r.zone != z && r.phase == .committed)
  devices : ∀ w, q.device w = { p.device w with permit := .hold }
  records : q.mgmt =
    ({ p with mgmt := p.mgmt.queueEvent t (some z) (some x) (.trackingFault reason) } : Part).mgmtAfterRaise .tracking none
  ring : q.ring =
    { p.ring with bcastPending := true
                  bcastTimer := if p.mc.latch then p.ring.bcastTimer else some (p.ring.ringTime + p.periods 1) }
  lines : q.lines = p.lines
  store : q.store = p.store
  classifier : q.cls = p.cls
  dispatch : q.dsp = p.dsp
  counters : q.cnt = p.cnt

/-! ## The part at its reset values -/

/-- Every block at the value its rule gives after every reset (R1, R11, R20, R23, R45, R62, R63, R91, R124, R154, R157,
R162, R164, R166, R170, R176, R177, R179, R181, R182); the lines, the override budget and the reset cause apart. -/
structure Part.AtResetValues (p : Part) : Prop where
  unloaded : (∀ n : NodeId, p.store.nodes[n] = none) ∧ (∀ z : ZoneId, p.store.zones[z] = none) ∧ (∀ i : RouteId, p.store.routes[i] = none) ∧
    (∀ i : SwitchId, p.store.switches[i] = none) ∧ (∀ i : EntryId, p.store.placement[i] = none) ∧ (∀ i : EntryId, p.store.estops[i] = none)
  params : p.store.params =
    { cyclePeriod := 10, silenceLimit := 200, unlisted := .drop, dispatchGap := 0, switchLimit := 5000
      slowThreshold := 0, lapThreshold := 0 }
  levels : ∀ n : NodeId, p.cls.levels[n] = none ∧ p.cls.lastCounter[n] = none
  zones : ∀ z, p.zone z =
    { state := .unarmed, occupant := none, epoch := 0, entryTime := none, trap := .none, speed := none, deadline := none
      remainder := none, pauseMark := false, reason := none, lastBranch := .b, trapExpiry := none
      transitExpiry := none, releaseTimer := none, flank := 0 }
  trains : ∀ x, p.train x =
    { state := .absent, head := none, tail := none, reserved := none, lastSpeed := none, divert := false, laps := 0
      serviceDue := false }
  setter : p.rs.setting = none ∧ p.rs.requests = [] ∧ p.rs.stack = [] ∧ p.rs.routes = [] ∧ p.rs.timer = none
  switches : ∀ i, p.switch i = { commanded := none, holders := 0, inService := false, lockLost := false }
  devices : ∀ z, p.device z =
    { permit := .hold, asSent := none, forwarded := none, sup := .unsupervised, timer := none, changeTime := none
      latch := false }
  dispatch : p.dsp = { last := none, gap := .met, expiry := none }
  mode : p.mc.mode = .config ∧ p.mc.latch = false ∧ p.mc.causes = [] ∧ p.mc.first = none ∧ p.mc.healthy = false ∧
    ∀ i : EntryId, p.mc.estopMem[i] = none
  ring : p.ring =
    { ringTime := 0, synced := false, cIn := .waitIdle, fIn := .waitIdle, fOut := none, cOut := none, down := [], up := []
      bcastPending := false, bcastTimer := none, silent := false, silenceTimer := some 2000, lastCycleStart := none
      linkDown := false, linkTimer := some 200, lastFinStart := none, repTimer := none, linkFaultPending := false
      linkFaultCount := 0 }
  management : p.mgmt =
    { responses := [], precedence := none, resetPending := false, frameError := false, loadTainted := false
      evqOverflow := false, healthAlert := false, events := [], seq := 0
      reporting := { batch := .off, mask := { tracking := true, dispatch := true, health := true } }
      setting := none, signature := none }
  frames : p.cnt.cIn = .zero ∧ p.cnt.fIn = .zero ∧ p.cnt.fOut = .zero ∧ p.cnt.cOutForwarded = 0
  health : (∀ n : NodeId, p.cnt.nodes[n] = { stray := 0, edgeLoss := 0, alerted := false }) ∧
    ∀ z : ZoneId, p.cnt.devices[z] = { operations := 0, slow := 0, overrides := 0, alerted := false }

/-- What the start of a reset leaves (R162, R186): nothing is received, transmitted, queued or timed by the Ring Path
Unit, the response and event queues are empty, HEALTHY is down and the record names the cause. -/
def Part.resetBegun (p : Part) (cause : ResetCause) : Part :=
  { p with
    lines := { p.lines with inReset := true, resetCause := cause }
    mc := { p.mc with healthy := false }
    mgmt := { p.mgmt with responses := [], events := [], resetPending := false }
    ring :=
      { p.ring with
        cIn := .waitIdle, fIn := .waitIdle, fOut := none, cOut := none, down := [], up := []
        bcastPending := false, bcastTimer := none, silenceTimer := none, linkTimer := none, repTimer := none
        linkFaultPending := false } }

/-! ## Invariants -/

/-- HEALTHY is asserted in the running modes out of reset, and at no other time (R129). -/
def Part.HealthyFollowsMode (p : Part) : Prop := p.mc.healthy = (p.mc.mode.running && !p.lines.inReset)

/-- In CONFIG and STOPPED no permit is OPEN, no route is being set or SET, and no request is queued (R90, R125, R131). -/
structure Part.Interlocked (p : Part) : Prop where
  permits : p.mc.mode.mayRelease = false → ∀ z, (p.device z).permit = .hold
  setter : p.mc.mode.mayRelease = false → p.rs.setting = none ∧ p.rs.requests = []
  routes : p.mc.mode.mayRelease = false → ∀ r ∈ p.rs.routes, r.phase = .committed

/-- The latch, its causes, its first cause and the repetition of the broadcast hold frame go together (R130, R152). -/
structure Part.LatchCoherent (p : Part) : Prop where
  causes : p.mc.latch = !p.mc.causes.isEmpty
  first : p.mc.latch = p.mc.first.isSome
  named : ∀ c, p.mc.first = some c → c ∈ p.mc.causes
  pending : p.ring.bcastPending = true → p.mc.latch = true
  repeated : p.lines.inReset = false → p.ring.bcastTimer.isSome = p.mc.latch
  config : p.mc.mode = .config → p.mc.latch = false

/-- The two monitors: each runs its timer while its condition is absent, and LINK_FAULT frames belong to an outage (R158
to R160). -/
structure Part.MonitorsCoherent (p : Part) : Prop where
  silence : p.lines.inReset = false → p.ring.silenceTimer.isSome = !p.ring.silent
  link : p.lines.inReset = false → p.ring.linkTimer.isSome = !p.ring.linkDown
  repetition : p.lines.inReset = false → p.ring.repTimer.isSome = p.ring.linkDown
  pending : p.ring.linkFaultPending = true → p.ring.linkDown = true

/-- The queues hold what their rules allow, and a switch at most 8 holders (R85, R150, R164, R176). -/
structure Part.WithinCapacity (p : Part) : Prop where
  responses : p.mgmt.responses.length ≤ 8
  events : p.mgmt.events.length ≤ 32
  down : p.ring.down.length ≤ 16
  up : p.ring.up.length ≤ 16
  holders : ∀ i, (p.switch i).holders ≤ 8

/-- The fields of a zone go with its state (R20, R37, R41, R43, R52, 2.8). -/
structure ZoneDyn.Coherent (d : ZoneDyn) : Prop where
  reason : d.reason.isSome = (d.state == .fault)
  release : d.releaseTimer.isSome = (d.state == .releasing)
  deadline : d.deadline.isSome = (d.state == .moving || d.state == .releasing)
  transit : d.transitExpiry.isSome = true → d.state = .moving
  trap : d.trapExpiry.isSome = true → d.state = .moving ∧ d.trap = .pending
  remainder : d.remainder.isSome = true → d.state = .moving
  empty : d.state = .unarmed ∨ d.state = .free ∨ d.state = .outOfService → d.occupant = none
  named : d.state = .reserved ∨ d.state = .moving ∨ d.state = .held ∨ d.state = .releasing → d.occupant.isSome = true

/-- Every zone is coherent. -/
def Part.ZonesCoherent (p : Part) : Prop := ∀ z, (p.zone z).Coherent

/-- Every loaded slot holds a record whose fields lie in the ranges of its table (R1). -/
structure Store.Valid (t : Store) : Prop where
  zones : ∀ (z : ZoneId) r, t.zones[z] = some r → r.valid z = true
  routes : ∀ (i : RouteId) r, t.routes[i] = some r → r.valid = true
  switches : ∀ (i : SwitchId) r, t.switches[i] = some r → r.valid = true
  params : t.params.valid = true

end Sys2Proof.Machine
end

