-- ==== Sys2Proof/Certificates/Slice0/Obligations.lean ====
section
/-! DEFINITION. The statements for the provers, each made from the numbered rules of spec/ in the words of Safety.lean.
Whether an expiry or a limit is due, has passed or is not due is said in the words of R49; at a ring time of exactly 2^31
ticks before it, where R49 and R51 part, that is assumption log 27.
A statement gives the next state of a command whole where it can (`exec c s = .next { s with part := … }`), so that it says
at once that the command completes, what it does and what it leaves alone. -/

open Sys2Proof Sys2Proof.Machine

/-! ## The step, and resets -/

/-- A step takes the oldest waiting command and is `exec` of it on the state with the rest of the queue; with nothing
waiting the part idles. Rests on assumption log 4. -/
def Obligations.StepRunsTheFrontCommand : Prop :=
  (∀ (c : Instr) (rest : List Instr) (p : Part),
    step { pending := c :: rest, part := p } = exec c { pending := rest, part := p }) ∧
  (∀ p : Part, step { pending := [], part := p } = .next { pending := [], part := p })

/-- Every command answers a next state, and no command touches the commands that wait. Rests on assumption log 2. -/
def Obligations.EveryCommandAnswersANextState : Prop :=
  ∀ (c : Instr) (s : State), ∃ p : Part, exec c s = .next { s with part := p }

/-- The state after reset: nothing waits, every block is at its reset value, the budget is 5 and the cause POWER_ON,
the MAINT_KEY line and the supply stand as assumption log 3 says, and every invariant below holds. -/
def Obligations.ResetStateHoldsTheResetValues : Prop :=
  State.reset.pending = [] ∧ State.reset.part.AtResetValues ∧ State.reset.part.mc.budget = 5 ∧
  State.reset.part.lines = { inReset := false, resetCause := .powerOn, maintKey := false, supplyWarn := false } ∧
  State.reset.part.HealthyFollowsMode ∧ State.reset.part.Interlocked ∧ State.reset.part.LatchCoherent ∧
  State.reset.part.MonitorsCoherent ∧ State.reset.part.WithinCapacity ∧ State.reset.part.ZonesCoherent ∧
  State.reset.part.store.Valid

/-- RESET_END leaves every block at its reset value, keeps the reset cause and the key line, reads the supply anew,
and restores the override budget unless the reset was requested (R143, R162, R186). That it changes nothing outside a
reset is the choice of assumption log 6, and that it sets every block at once that of log 16. -/
def Obligations.ResetEndRestoresTheResetValues : Prop :=
  ∀ (s : State) (warn : Bool),
    (s.part.lines.inReset = true →
      ∃ p : Part, exec (.resetEnd warn) s = .next { s with part := p } ∧ p.AtResetValues ∧
        p.lines = { s.part.lines with inReset := false, supplyWarn := warn } ∧
        p.mc.budget = if s.part.lines.resetCause = .resetRequest then s.part.mc.budget else 5) ∧
    (s.part.lines.inReset = false → exec (.resetEnd warn) s = .next s)

/-- The conditions of a reset begin one in every state of the part, each under its own cause. RESET is taken in every
mode, is answered with SUCCESS, and leaves a reset pending and nothing else changed; the end of its response begins
the reset, and without that response RESET_RESPONSE_SENT finds nothing to end. While the part is in reset, nothing but
the conditions of a reset, its end and the key line changes anything (R162, R167, R186). Rests on assumption log 6 and
16. -/
def Obligations.ResetsBeginAndHoldThePart : Prop :=
  (∀ s : State,
      exec .powerOn s = .next { s with part := s.part.resetBegun .powerOn } ∧
      exec .resetLine s = .next { s with part := s.part.resetBegun .resetLine } ∧
      exec .supplyLow s = .next { s with part := s.part.resetBegun .supplyLow } ∧
      (∀ c, s.part.isLive = true → s.part.ring.cOut = some c → c.isReset = true →
        exec .resetResponseSent s = .next { s with part := s.part.resetBegun .resetRequest } ∧
        exec (.transmissionEnd .cOut) s = .next { s with part := s.part.resetBegun .resetRequest }) ∧
      ((∀ c, s.part.ring.cOut = some c → c.isReset = false) → exec .resetResponseSent s = .next s)) ∧
  (∀ s : State, s.part.lines.inReset = true →
      (∀ c : Instr, c.actsInReset = false → exec c s = .next s) ∧
      (∀ level : Bool, exec (.maintKeyChange level) s =
        .next { s with part := { s.part with lines := { s.part.lines with maintKey := level } } })) ∧
  (∀ (s : State) (tag : Byte) (args : List Byte), s.part.takesRequest = true →
      let p := s.part.frameTaken .cIn
      exec (.reset tag args) s =
        .next { s with part :=
          (({ p with mgmt := { p.mgmt with resetPending := true } } : Part).responded tag 0x15 args .success []) })

/-! ## The input ports -/

/-- A start-of-frame symbol makes an IDLE port RECEIVING, and on F-in it restarts the field-link timer unless the link
is down; a port that still waits for an idle line takes no symbol, and an idle line ends that wait. A completed frame is
dropped under the first check that fails (R146), each written out in Safety.lean: a stored byte of even parity, a length
field above 48, too few bytes for header and CRC or another number of payload bytes than the length field, a wrong CRC.
A drop counts under one reason, sets FRAME_ERROR, and on C-in breaks precedence and taints a load: a frame that fails a
check, a frame that stops in its middle, and a frame cut off by the start of the next (R145 to R147, R159, R162). Rests
on assumption log 6 and 7. -/
def Obligations.SymbolsAndDropsMoveTheInputPorts : Prop :=
  (∀ s : State, s.part.isLive = true →
      (s.part.ring.cIn = .idle →
        exec (.frameStart .cIn) s =
          .next { s with part := { s.part with ring := { s.part.ring with cIn := .receiving } } }) ∧
      (s.part.ring.fIn = .idle →
        exec (.frameStart .fIn) s =
          .next { s with part := { s.part with ring :=
            { s.part.ring with
              fIn := .receiving, lastFinStart := some s.part.ring.ringTime
              linkTimer := if s.part.ring.linkDown then s.part.ring.linkTimer
                else some (s.part.ring.ringTime + s.part.periods 2) } } }) ∧
      (∀ port : InPort, s.part.ring.rx port = .waitIdle → exec (.frameStart port) s = .next s) ∧
      (s.part.ring.cIn = .waitIdle →
        exec (.lineIdleAfterReset .cIn) s =
          .next { s with part := { s.part with ring := { s.part.ring with cIn := .idle } } }) ∧
      (s.part.ring.fIn = .waitIdle →
        exec (.lineIdleAfterReset .fIn) s =
          .next { s with part := { s.part with ring := { s.part.ring with fIn := .idle } } }) ∧
      (∀ port : InPort, s.part.ring.rx port ≠ .waitIdle → exec (.lineIdleAfterReset port) s = .next s)) ∧
  (∀ s : State,
      (∀ (port : InPort) (rx : List RxSymbol) (r : DropReason),
        s.part.hears port = true → DroppedFor rx r →
        exec (.frameDrop port rx) s =
          .next { s with part :=
            { s.part.afterDrop port r with ring := (s.part.afterDrop port r).ring.setRx port .idle } }) ∧
      (∀ port : InPort, s.part.hears port = true →
        exec (.fragmentTimeout port) s =
          .next { s with part :=
            { s.part.afterDrop port .fragment with
              ring := (s.part.afterDrop port .fragment).ring.setRx port .idle } }) ∧
      (∀ port : InPort, s.part.hears port = false → exec (.fragmentTimeout port) s = .next s) ∧
      (s.part.hears .cIn = true →
        exec (.frameStart .cIn) s = .next { s with part := s.part.afterDrop .cIn .fragment }) ∧
      (s.part.hears .fIn = true →
        exec (.frameStart .fIn) s =
          .next { s with part := { s.part.afterDrop .fIn .fragment with ring :=
            { s.part.ring with
              lastFinStart := some s.part.ring.ringTime
              linkTimer := if s.part.ring.linkDown then s.part.ring.linkTimer
                else some (s.part.ring.ringTime + s.part.periods 2) } } }))

/-- Every frame of at most 48 payload bytes that a sender puts on the line passes the checker as the same frame: no
field is dropped or moved. -/
def Obligations.IntactFramesPassTheChecker : Prop :=
  ∀ f : Frame, f.payload.length ≤ 48 → checkFrame (frameOnLine f) = .intact f

/-- A frame that the part only forwards joins the back of its forward queue, and a full queue refuses and counts it;
nothing else changes, but that an intact frame from F-in also ends an outage of the field link (R148 to R150, R159).
From C-in this is every frame but a CYCLE_START of length 4 and a MGMT_REQUEST to 62, from F-in every frame but a
report. Rests on assumption log 6 and 7. -/
def Obligations.ForwardedFramesJoinTheirQueues : Prop :=
  (∀ (s : State) (f : Frame), s.part.hears .cIn = true → f.isCycleStart = false → f.toManagement = false →
      let p := s.part.frameTaken .cIn
      let queued := { p with ring := { p.ring with down := p.ring.down ++ [f] } }
      let refused := { p with cnt := { p.cnt with cIn := { p.cnt.cIn with queueFull := p.cnt.cIn.queueFull + 1 } } }
      (s.part.ring.down.length < 16 →
        exec (.commandFrame f) s = .next { s with part := queued } ∧
        exec (.cinFrameForward f) s = .next { s with part := queued }) ∧
      (16 ≤ s.part.ring.down.length →
        exec (.commandFrame f) s = .next { s with part := refused } ∧
        exec (.cinFrameForward f) s = .next { s with part := refused })) ∧
  (∀ (s : State) (f : Frame), s.part.hears .fIn = true → f.isReport = false →
      let p := s.part.frameTaken .fIn
      let up :=
        if s.part.ring.linkDown then
          { p with ring :=
            { p.ring with linkDown := false, repTimer := none, linkFaultPending := false
                          linkTimer := some (p.ring.ringTime + p.periods 2) } }
        else p
      (s.part.ring.up.length < 16 →
        exec (.finFrameForward f) s =
          .next { s with part := { up with ring := { up.ring with up := up.ring.up ++ [f] } } }) ∧
      (16 ≤ s.part.ring.up.length →
        exec (.finFrameForward f) s =
          .next { s with part := { up with cnt :=
            { up.cnt with fIn := { up.cnt.fIn with queueFull := up.cnt.fIn.queueFull + 1 } } } }))

/-! ## Ring time -/

/-- A CYCLE_START of length 4 sets ring time to the time it carries, whatever the part's own was: the part is
synchronized, no longer silent, its silence timer starts anew, a pending reporting setting is in force, and the frame
joins the downstream queue unless that is full. Where nothing is due at the new time that is all it does in three cases:
ring time moves by at most 100 ticks either way, the part was not synchronized, or the mode is CONFIG; the running
timers of the Ring Path Unit restart unless a synchronized part moves by at most 100 ticks (R156), and no cause is
raised. A step of more than 100 ticks either way, taken by a synchronized part outside CONFIG, restarts them and holds
the ride with cause TIME; where nothing is due at the new time it does no more (R155, R158, R177). Rests on assumption
log 5, 7 and 27. -/
def Obligations.CycleStartSetsRingTime : Prop :=
  (∀ (s : State) (f : Frame) (c : RingTime), s.part.hears .cIn = true → f.ftype = typeCycleStart →
      cycleTimeOf f = some c → s.part.store.params.valid = true →
      ∃ p : Part, exec (.cycleStart f) s = .next { s with part := p } ∧
        p.ring.ringTime = c ∧ p.ring.synced = true ∧ p.ring.silent = false ∧ p.ring.lastCycleStart = some c ∧
        p.ring.silenceTimer = some (c + BitVec.ofNat 32 (s.part.store.params.silenceLimit.toNat * 10)) ∧
        p.mgmt.setting = none ∧ p.mgmt.reporting = s.part.mgmt.setting.getD s.part.mgmt.reporting ∧
        p.ring.cIn = .idle ∧ p.cnt.cIn.received = s.part.cnt.cIn.received + 1 ∧ p.store = s.part.store ∧
        (s.part.ring.down.length < 16 → p.ring.down = s.part.ring.down ++ [f]) ∧
        (16 ≤ s.part.ring.down.length →
          p.ring.down = s.part.ring.down ∧ p.cnt.cIn.queueFull = s.part.cnt.cIn.queueFull + 1)) ∧
  (∀ (s : State) (f : Frame) (c : RingTime), s.part.hears .cIn = true → f.ftype = typeCycleStart →
      cycleTimeOf f = some c →
      let p := s.part.frameTaken .cIn
      let near := (c - p.ring.ringTime).toNat ≤ 100 ∨ (p.ring.ringTime - c).toNat ≤ 100
      let silently := p.ring.synced = true ∧ near
      let again := fun (k : Nat) (timer : Option RingTime) =>
        if silently then timer else timer.map (fun _ => c + p.periods k)
      let adopted : Part :=
        { p with
          ring :=
            { p.ring with
              ringTime := c, synced := true, silent := false, lastCycleStart := some c
              silenceTimer := some (c + BitVec.ofNat 32 (p.store.params.silenceLimit.toNat * 10))
              linkTimer := again 2 p.ring.linkTimer, repTimer := again 1 p.ring.repTimer
              bcastTimer := again 1 p.ring.bcastTimer }
          mgmt :=
            match p.mgmt.setting with
            | none => p.mgmt
            | some r =>
              { p.mgmt with reporting := r, setting := none, events := if r.batch = .off then [] else p.mgmt.events } }
      (near ∨ p.ring.synced = false ∨ p.mc.mode = .config → adopted.nothingDue = true →
        exec (.cycleStart f) s = .next { s with part := adopted.joinedDown f }) ∧
      (¬near → p.ring.synced = true → p.mc.mode ≠ .config →
        (∃ q : Part, exec (.cycleStart f) s = .next { s with part := q } ∧ q.HeldAll .time) ∧
        (adopted.nothingDue = true →
          ∃ q : Part, exec (.cycleStart f) s = .next { s with part := q.joinedDown f } ∧ adopted.RaisedTo q .time)))

/-- A tick advances ring time by one, modulo 2^32; where no expiry is due at the new time nothing else changes, and in
every state the tick then does what the expiry commands do one after the other (R51, R154). Ring times are compared by
their difference modulo 2^32, and the comparison is antisymmetric (R49, R50); a timestamp after ring time is replaced by
ring time (R28). The order of the expiries and what is out of place rest on assumption log 5 and 6, and that nothing is
due at a difference of exactly 2^31 on log 27. -/
def Obligations.RingTimeAdvancesAndCompares : Prop :=
  (∀ s : State, s.part.isLive = true →
      let t := { s with part := { s.part with ring := { s.part.ring with ringTime := s.part.ring.ringTime + 1 } } }
      (t.part.nothingDue = true → exec .ringTimeTick s = .next t) ∧
      exec .ringTimeTick s = execAll expiryCommands t ∧
      ∃ p : Part, exec .ringTimeTick s = .next { s with part := p } ∧ p.ring.ringTime = s.part.ring.ringTime + 1) ∧
  (∀ a b : RingTime,
      (isAfter b a = true ↔ 0 < (b - a).toNat ∧ (b - a).toNat < 2 ^ 31) ∧
      (atOrAfter b a = true ↔ a = b ∨ isAfter b a = true) ∧
      (isAfter b a = true → atOrAfter a b = false) ∧
      (elapsed a b = if atOrAfter b a then (b - a).toNat else 0) ∧
      (clampTime a b = if isAfter b a then a else b))

/-! ## F-out and the filter -/

/-- A frame that is no COMMAND leaves on F-out as it came, and so does a COMMAND to a FREE node in any mode, and
outside CONFIG one to a SENSOR or STATION_IO node or, under the policy PASS, to an unlisted one; the forwarded counter
rises by 1 and nothing else changes. What the filter drops, the only frame waiting, leaves F-out IDLE: in CONFIG a
COMMAND to a field node that is not FREE, and a broadcast, under CONFIG_DROP; a COMMAND to 0 or 62, one that is not 3
bytes long, and outside CONFIG one to an unlisted node under the policy DROP and a broadcast without the
broadcast-hold flag, under UNLISTED (R92, R95, R96, R151). Rests on assumption log 8. -/
def Obligations.CommandsPassOrAreDroppedByTheFilter : Prop :=
  (∀ (s : State) (f : Frame) (rest : List Frame), s.part.foutFree = true → s.part.ring.down = f :: rest →
      (f.ftype ≠ typeCommand → exec .foutFrameTransmit s = .next { s with part := s.part.sentFout f rest false }) ∧
      (∀ n : NodeId, f.ftype = typeCommand → (commandOf f).isSome = true → nodeOf f.dest = some n →
        (s.part.store.nodes[n] = some .free ∨
          s.part.mc.mode ≠ .config ∧
            (s.part.store.nodes[n] = some .sensor ∨ s.part.store.nodes[n] = some .stationIo ∨
              s.part.store.nodes[n] = none ∧ s.part.store.params.unlisted = .pass)) →
        exec .commandTransmit s = .next { s with part := s.part.sentFout f rest false })) ∧
  (∀ (s : State) (f : Frame), s.part.foutFree = true → s.part.ring.down = [f] → f.ftype = typeCommand →
      let p := { s.part with ring := { s.part.ring with down := [] } }
      let config := { p with cnt := { p.cnt with fOut := { p.cnt.fOut with configDrop := p.cnt.fOut.configDrop + 1 } } }
      let unlisted := { p with cnt := { p.cnt with fOut := { p.cnt.fOut with unlisted := p.cnt.fOut.unlisted + 1 } } }
      ((commandOf f).isSome = true → s.part.mc.mode = .config →
        ((∃ n, nodeOf f.dest = some n ∧ s.part.store.nodes[n] ≠ some .free) ∨ f.dest.toNat % 64 = 63) →
        exec .commandTransmit s = .next { s with part := config }) ∧
      ((commandOf f = none ∨ f.dest.toNat % 64 = 0 ∨ f.dest.toNat % 64 = 62 ∨
          (s.part.mc.mode ≠ .config ∧ f.dest.toNat % 64 = 63 ∧ ∃ c, commandOf f = some c ∧ c.flags.getLsbD 0 = false) ∨
          (s.part.mc.mode ≠ .config ∧ s.part.store.params.unlisted = .drop ∧
            ∃ n, nodeOf f.dest = some n ∧ s.part.store.nodes[n] = none)) →
        exec .commandTransmit s = .next { s with part := unlisted }))

/-- No release value leaves under a HOLD permit. Outside CONFIG a COMMAND to a HOLD node leaves on F-out with the hold
value on every channel whose device's permit was HOLD when the frame was taken, and as sent on every channel that no
device with a HOLD permit has; the overridden flag and counter tell whether a value was changed, and no other field
is. Rests on assumption log 8. -/
def Obligations.NoReleaseLeavesUnderAHoldPermit : Prop :=
  ∀ (s : State) (f : Frame) (rest : List Frame) (n : NodeId) (c : Command), s.part.foutFree = true →
    s.part.ring.down = f :: rest → f.ftype = typeCommand → commandOf f = some c → nodeOf f.dest = some n →
    s.part.mc.mode ≠ .config → s.part.store.nodes[n] = some .hold →
    ∃ (p : Part) (c' : Command), exec .commandTransmit s = .next { s with part := p } ∧
      p.ring.fOut = some { f with payload := c'.payload } ∧ p.ring.down = rest ∧
      (∀ (ch : Channel) (z : ZoneId) (rec : ZoneRec), s.part.store.zones[z] = some rec → rec.holdNode = n →
        rec.holdCh = ch →
        (∀ (w : ZoneId) (r : ZoneRec), s.part.store.zones[w] = some r → r.holdNode = n → r.holdCh = ch →
          (s.part.device w).permit = .hold) →
        c'.holdValue ch = .hold) ∧
      (∀ ch : Channel,
        (∀ (w : ZoneId) (r : ZoneRec), s.part.store.zones[w] = some r → r.holdNode = n → r.holdCh = ch →
          (s.part.device w).permit = .opened) →
        c'.holdValue ch = c.holdValue ch) ∧
      c'.flags = (if c'.outputs = c.outputs then c.flags else c.flags ||| 2) ∧
      p.cnt.fOut =
        { s.part.cnt.fOut with
          forwarded := s.part.cnt.fOut.forwarded + 1
          overridden := if c'.outputs = c.outputs then s.part.cnt.fOut.overridden else s.part.cnt.fOut.overridden + 1 }

/-- What a COMMAND to a HOLD node makes of the device records: a device that alone has its output channel takes the
value sent as its as-sent value; its forwarded value becomes hold where the permit refuses a release, which is counted
as an override, and the value sent otherwise, with its supervision state, timer, change time and latch by R99 and
R102; every other device keeps all but its permit, which a cancelled or a made route may change (R82, R93, R98, R99).
Rests on assumption log 8. -/
def Obligations.HoldCommandsAreForwardedAndSupervised : Prop :=
  ∀ (s : State) (f : Frame) (rest : List Frame) (c : Command) (n : NodeId), s.part.TakesCommand f rest c →
    nodeOf f.dest = some n → s.part.store.nodes[n] = some .hold →
    let p := s.part
    ∃ q : Part, exec .commandTransmit s = .next { s with part := q } ∧
      (∀ (z : ZoneId) (rec : ZoneRec), p.store.zones[z] = some rec → rec.holdNode = n →
        (∀ (w : ZoneId) (r : ZoneRec), p.store.zones[w] = some r → r.holdNode = n → r.holdCh = rec.holdCh → w = z) →
        let d := p.device z
        let sent := c.holdValue rec.holdCh
        let refused := sent = .release ∧ d.permit = .hold
        { q.device z with permit := d.permit } =
          ({ d with asSent := some sent } : DeviceRec).forwards (if refused then .hold else sent) (p.openFb rec)
            (p.closedFb rec) p.ring.ringTime rec.feedbackLimit ∧
        q.cnt.devices[z].overrides =
          if refused then risen p.cnt.devices[z].overrides else p.cnt.devices[z].overrides) ∧
      (∀ z : ZoneId, (∀ rec : ZoneRec, p.store.zones[z] = some rec → rec.holdNode ≠ n) →
        { q.device z with permit := (p.device z).permit } = p.device z ∧
        q.cnt.devices[z].overrides = p.cnt.devices[z].overrides)

/-- The controller's own broadcast hold outside CONFIG leaves as sent and is taken as hold for the device of every
loaded zone: as-sent and forwarded value are hold, supervised by R99, the LEVEL requests that are not being set are
gone, and with none queued to be set the SET routes out of loaded zones are gone too (R67, R82, R96). Rests on
assumption log 8. -/
def Obligations.TheControllersBroadcastHoldIsTaken : Prop :=
  ∀ (s : State) (f : Frame) (rest : List Frame) (c : Command), s.part.TakesCommand f rest c → f.dest.toNat % 64 = 63 →
    c.flags.getLsbD 0 = true →
    let p := s.part
    ∃ q : Part, exec .commandTransmit s = .next { s with part := q } ∧
      q.ring = (p.sentFout f rest false).ring ∧ q.cnt.fOut = (p.sentFout f rest false).cnt.fOut ∧
      q.mc = p.mc ∧ q.store = p.store ∧ q.lines = p.lines ∧ q.cls = p.cls ∧
      (∀ (z : ZoneId) (rec : ZoneRec), p.store.zones[z] = some rec →
        { q.device z with permit := (p.device z).permit } =
          ({ p.device z with asSent := some .hold } : DeviceRec).forwards .hold (p.openFb rec) (p.closedFb rec)
            p.ring.ringTime rec.feedbackLimit) ∧
      (∀ z : ZoneId, p.store.zones[z] = none → q.device z = p.device z) ∧
      (∀ r ∈ q.rs.requests, r ∈ p.rs.requests ∧
        (p.store.zones[r.zone].isSome = true → r.origin = .level → p.isSetting r.zone = true)) ∧
      (p.rs.requests = [] ∨ p.rs.setting.isSome = true →
        q.rs.routes =
          p.rs.routes.filter (fun r => !(p.store.zones[r.zone].isSome && r.phase == .set)) ∧
        ∀ r ∈ p.rs.routes, r.phase = .set → p.store.zones[r.zone].isSome = true → (q.device r.zone).permit = .hold)

/-- A COMMAND to the node of a loaded switch leaves with the commanded position on the position channel, unless the
position is UNKNOWN outside MAINT, when it passes as sent; in MAINT a switch with no holder adopts the position sent
(stated for an empty request queue, as a waiting request may take the switch within the same event). Rests on
assumption log 8. -/
def Obligations.SwitchCommandsCarryTheCommandedPosition : Prop :=
  ∀ (s : State) (f : Frame) (rest : List Frame) (n : NodeId) (c : Command) (i : SwitchId) (rec : SwitchRec),
    s.part.foutFree = true → s.part.ring.down = f :: rest → f.ftype = typeCommand → commandOf f = some c →
    nodeOf f.dest = some n → s.part.mc.mode ≠ .config → s.part.store.nodes[n] = some .switch →
    s.part.switchOf n = some i → s.part.store.switches[i] = some rec →
    (∀ pos : Branch, ¬(s.part.mc.mode = .maint ∧ (s.part.switch i).holders = 0) →
      (s.part.switch i).commanded = some pos →
      ∃ c' : Command,
        (∀ ch : Channel, c'.outputs.getLsbD ch.val =
          if ch = rec.posCh then decide (pos = .b) else c.outputs.getLsbD ch.val) ∧
        c'.flags = (if c'.outputs = c.outputs then c.flags else c.flags ||| 2) ∧
        exec .commandTransmit s =
          .next { s with part := s.part.sentFout { f with payload := c'.payload } rest
                                  (decide (c'.outputs ≠ c.outputs)) }) ∧
    (s.part.mc.mode ≠ .maint → (s.part.switch i).commanded = none →
      exec .commandTransmit s = .next { s with part := s.part.sentFout f rest false }) ∧
    (s.part.mc.mode = .maint → (s.part.switch i).holders = 0 → s.part.rs.requests = [] →
      ∃ p : Part, exec .commandTransmit s = .next { s with part := p } ∧
        p = { s.part.sentFout f rest false with rs := p.rs } ∧
        p.switch i =
          { s.part.switch i with commanded := some (if c.outputs.getLsbD rec.posCh.val then .b else .a) } ∧
        (∀ j, j ≠ i → p.switch j = s.part.switch j) ∧ p.rs = { s.part.rs with switches := p.rs.switches })

/-- The broadcast hold frame goes out as R104 lays it out; the forwarded value of every device of a loaded zone is hold
afterwards, and where it changes, the change time, the supervision state and timer and the latch follow by R99 and R102;
the as-sent values and the permits stand, a device already at hold and the device of an unloaded zone stay whole, and
nothing but the devices, the injection and the counter changes. Rests on assumption log 8. -/
def Obligations.TheBroadcastHoldFrameHoldsEveryDevice : Prop :=
  ∀ s : State, s.part.isLive = true → s.part.ring.fOut = none → s.part.ring.bcastPending = true →
    let before := s.part
    ∃ p : Part, exec .broadcastHoldFrame s = .next { s with part := p } ∧
      p = { (s.part.sentFout { dest := 63, src := 62, ftype := 2, payload := [1, 0, 0] } s.part.ring.down false) with
              ring := { s.part.ring with
                bcastPending := false, fOut := some { dest := 63, src := 62, ftype := 2, payload := [1, 0, 0] } }
              devices := p.devices } ∧
      (∀ (z : ZoneId) (rec : ZoneRec), before.store.zones[z] = some rec →
        p.device z = (before.device z).forwards .hold (before.openFb rec) (before.closedFb rec) before.ring.ringTime
          rec.feedbackLimit) ∧
      (∀ z : ZoneId, before.store.zones[z] = none ∨ (before.device z).forwarded = some .hold →
        p.device z = before.device z)

/-! ## C-out, and the ends of transmissions -/

/-- C-out takes a pending LINK_FAULT frame before all else, then the front response, then the front frame of the
upstream queue, and an EVENT frame of the oldest records only when both queues are empty and reporting is on; each is
built as its rule lays it out, leaves its queue and raises the forwarded counter, and nothing else changes. The row of
a source that is empty, or that another stands before, changes nothing, and so does every row while C-out transmits
(R153, R160, R164, R178). Rests on assumption log 6 and 8. -/
def Obligations.CoutTakesItsSourcesInOrder : Prop :=
  (∀ s : State, s.part.isLive = true → s.part.ring.cOut = none →
      let fault := s.part.ring.linkFaultPending = true
      let responses := s.part.mgmt.responses
      let up := s.part.ring.up
      let reporting := s.part.mgmt.reporting.batch ≠ .off ∧ s.part.mgmt.events ≠ []
      (fault →
        exec .linkFaultFrame s =
          .next { s with part := (Part.sentCout { s.part with ring := { s.part.ring with linkFaultPending := false } }
            { dest := 0, src := 62, ftype := 7
              payload := flagByte s.part.ring.lastFinStart.isSome ::
                (be32 s.part.ring.ringTime ++ be32 (s.part.ring.lastFinStart.getD 0) ++
                  be16 s.part.ring.linkFaultCount) }
            false) }) ∧
      (∀ (r : Response) (rs : List Response), ¬fault → responses = r :: rs →
        exec .mgmtResponse s =
          .next { s with part := (Part.sentCout { s.part with mgmt := { s.part.mgmt with responses := rs } }
            { dest := 0, src := 62, ftype := 5, payload := r.tag :: r.code :: r.result.code :: r.data }
            (decide (r.code = 0x15 ∧ r.result = .success))) }) ∧
      (∀ (f : Frame) (fs : List Frame), ¬fault → responses = [] → up = f :: fs →
        exec .coutUpstreamTransmit s =
          .next { s with part := (Part.sentCout { s.part with ring := { s.part.ring with up := fs } } f false) }) ∧
      (¬fault → responses = [] → up = [] → reporting →
        let k := s.part.mgmt.reporting.batch.toNat
        exec .eventFrame s =
          .next { s with part :=
            (Part.sentCout { s.part with mgmt := { s.part.mgmt with events := s.part.mgmt.events.drop k } }
              { dest := 0, src := 62, ftype := 6
                payload := BitVec.ofNat 8 (s.part.mgmt.events.length - k) ::
                  (s.part.mgmt.events.take k).flatMap EventRecord.bytes }
              false) }) ∧
      (¬fault → exec .linkFaultFrame s = .next s) ∧
      (fault ∨ responses = [] → exec .mgmtResponse s = .next s) ∧
      (fault ∨ responses ≠ [] ∨ up = [] → exec .coutUpstreamTransmit s = .next s) ∧
      (fault ∨ responses ≠ [] ∨ up ≠ [] ∨ ¬reporting → exec .eventFrame s = .next s)) ∧
  (∀ s : State, s.part.ring.cOut.isSome = true →
      exec .linkFaultFrame s = .next s ∧ exec .mgmtResponse s = .next s ∧ exec .coutUpstreamTransmit s = .next s ∧
        exec .eventFrame s = .next s)

/-- The end of a transmission leaves the port IDLE, and in the same event the port's arbiter takes what waits, as the
row of that source does. Rests on assumption log 6 and 8. -/
def Obligations.TransmissionEndFreesThePort : Prop :=
  ∀ s : State, s.part.isLive = true →
    (s.part.ring.fOut.isSome = true →
      let t := { s with part := { s.part with ring := { s.part.ring with fOut := none } } }
      (s.part.ring.bcastPending = false → s.part.ring.down = [] → exec (.transmissionEnd .fOut) s = .next t) ∧
      (s.part.ring.bcastPending = true → exec (.transmissionEnd .fOut) s = exec .broadcastHoldFrame t) ∧
      (∀ f fs, s.part.ring.bcastPending = false → s.part.ring.down = f :: fs →
        exec (.transmissionEnd .fOut) s =
          if f.ftype = typeCommand then exec .commandTransmit t else exec .foutFrameTransmit t)) ∧
    (∀ c, s.part.ring.cOut = some c → c.isReset = false →
      let t := { s with part := { s.part with ring := { s.part.ring with cOut := none } } }
      (t.part.ring.linkFaultPending = false → t.part.mgmt.responses = [] → t.part.ring.up = [] →
        t.part.mgmt.reporting.batch = .off ∨ t.part.mgmt.events = [] → exec (.transmissionEnd .cOut) s = .next t) ∧
      (t.part.ring.linkFaultPending = true → exec (.transmissionEnd .cOut) s = exec .linkFaultFrame t) ∧
      (t.part.ring.linkFaultPending = false → t.part.mgmt.responses ≠ [] →
        exec (.transmissionEnd .cOut) s = exec .mgmtResponse t) ∧
      (t.part.ring.linkFaultPending = false → t.part.mgmt.responses = [] → t.part.ring.up ≠ [] →
        exec (.transmissionEnd .cOut) s = exec .coutUpstreamTransmit t) ∧
      (t.part.ring.linkFaultPending = false → t.part.mgmt.responses = [] → t.part.ring.up = [] →
        exec (.transmissionEnd .cOut) s = exec .eventFrame t)) ∧
    (s.part.ring.fOut = none → exec (.transmissionEnd .fOut) s = .next s) ∧
    (s.part.ring.cOut = none → exec (.transmissionEnd .cOut) s = .next s)

/-! ## Requests for routes and their setting -/

/-- A COMMAND to a HOLD node and the requests, for the only device of the node. A release value posts a LEVEL request,
with a refusal expiry in a STATION or LAUNCH, where the conditions of R66 hold, and nothing where one fails; a hold
value withdraws a LEVEL request that is not being set, and cancels a SET route: its locks are given back, its successor
is FREE, its permit HOLD and ROUTE_FAILED is queued (R66, R67, R77, R82, R112). Stated where the examination that
follows starts no route; the next statement has one that does. An AUTO_ENTRY request that waits in the HELD zone is such
a failed condition (the choice of assumption log 29, against R121). Rests on assumption log 8, 12 and 29. -/
def Obligations.LevelRequestsFollowTheAsSentValue : Prop :=
  ∀ (s : State) (f : Frame) (rest : List Frame) (c : Command) (z : ZoneId) (rec : ZoneRec),
    s.part.TakesHoldCommand f rest c z rec →
    let p := s.part
    let queued := fun (requests : List Request) =>
      ∃ q : Part, exec .commandTransmit s = .next { s with part := q } ∧
        q = { p with ring := q.ring, cnt := q.cnt, devices := q.devices, rs := { p.rs with requests := requests } }
    let postable := fun (x : TrainId) =>
      p.mc.mode ≠ .stopped ∧ (p.zone z).state = .held ∧ (p.zone z).occupant = some x ∧
        (∀ r ∈ p.rs.requests, r.zone ≠ z) ∧ ∀ r ∈ p.rs.routes, ¬(r.zone = z ∧ r.train = x)
    let withdrawn := p.rs.requests.filter (fun r => !(r.zone == z && r.origin == .level && !p.isSetting z))
    (∀ x, c.holdValue rec.holdCh = .release → postable x →
      let new : Request :=
        { zone := z, train := x, origin := .level, posted := p.ring.ringTime, reported := false
          refusal := if rec.kind = .station ∨ rec.kind = .launch then some (p.ring.ringTime + (p.periods 1 + 1))
            else none }
      (p.rs.setting.isSome = true ∨ ∀ r ∈ p.rs.requests ++ [new], p.ready r = none) →
      queued (p.rs.requests ++ [new])) ∧
    (c.holdValue rec.holdCh = .release → (∀ x, ¬postable x) → queued p.rs.requests) ∧
    (c.holdValue rec.holdCh = .hold → (∀ r ∈ p.rs.routes, ¬(r.zone = z ∧ r.phase = .set)) → queued withdrawn) ∧
    (∀ rt, c.holdValue rec.holdCh = .hold → p.rs.routes.filter (fun r => r.zone == z && r.phase == .set) = [rt] →
      (p.rs.setting.isSome = true ∨ withdrawn = []) →
      ∃ q : Part, exec .commandTransmit s = .next { s with part := q } ∧
        q.rs.routes = p.rs.routes.filter (fun r => !(r.zone == z && r.phase == .set)) ∧
        q.rs.requests = withdrawn ∧ q.rs.setting = p.rs.setting ∧ (q.device z).permit = .hold ∧
        ((p.zone rt.succ).state = .reserved → (p.zone rt.succ).occupant = some rt.train →
          (q.zone rt.succ).state = .free ∧ (q.zone rt.succ).occupant = none ∧
          (q.zone rt.succ).epoch = (p.zone rt.succ).epoch + 1 ∧ (q.train rt.train).reserved = none) ∧
        (∀ w, (q.zone w).flank = (p.zone w).flank - rt.locks.count (.flank w)) ∧
        (∀ i, (q.switch i).holders = (p.switch i).holders -
          rt.locks.countP (fun lock =>
            match lock with
            | .switch m _ => p.switchOf m == some i
            | _ => false)) ∧
        q.mgmt = p.mgmt.queueEvent p.ring.ringTime (some z) (some rt.train) (.routeFailed .cancelled) ∧
        q.mc = p.mc ∧ q.store = p.store ∧ q.dsp = p.dsp ∧ q.cls = p.cls)

/-- The oldest ready request, with every older one not ready, is started and its claims are executed in list order (R68,
R72). Where they all complete at once the route is SET within that event: the successor is RESERVED, the flanks and
switches are held, the permit is OPEN, ROUTE_SET is queued and the request is gone (R73, R74, R78). The first switch
that shows no lock for its position, with the claims before it completed, takes that position and a holder, its timer
starts at the switch limit, and the setting waits on it (R74, R75); one that shows both locks goes out of service, every
claim is released, SWITCH_FAULT BOTH_LOCKS and ROUTE_FAILED SWITCH_LOCKS are queued and the request is gone (R76, R77).
Stated for a request that a release value posts and for those that the gap expiry finds waiting, there whole where no
other request is ready afterwards, and otherwise as the first records of the event. Over a device already open the
release follows at once, and the route stands in the table COMMITTED. Rests on assumption log 5, 8, 12, 19, 23 and 25.
-/
def Obligations.ClaimsRunToASetRoute : Prop :=
  (∀ (s : State) (f : Frame) (rest : List Frame) (c : Command) (z sz : ZoneId) (rec : ZoneRec) (x : TrainId) (br : Branch)
      (locks : List Claim), s.part.TakesHoldCommand f rest c z rec → c.holdValue rec.holdCh = .release →
      let p := s.part
      p.mc.mode ≠ .stopped → (p.zone z).state = .held → (p.zone z).occupant = some x → (p.train x).head = some z →
      p.rs.requests = [] → p.rs.setting = none → (∀ r ∈ p.rs.routes, ¬(r.zone = z ∧ r.train = x)) →
      (rec.kind = .station ∨ rec.kind = .launch → ∀ ref ∈ rec.ready, p.level ref = true) →
      (rec.kind = .station → p.dsp.last = none ∨ p.dsp.gap = .met) → p.selectBranch z rec x = some br →
      p.routeRec z br = some { zone := z, branch := br, claims := .reserve sz :: locks } →
      (p.reservedFor sz x).ClaimsMet locks →
      (p.openFb rec = false →
        ∃ sent q : Part, exec .commandTransmit s = .next { s with part := q } ∧
          sent = { p with ring := sent.ring, cnt := sent.cnt, devices := sent.devices } ∧
          (sent.reservedFor sz x).RouteMade q z rec x br sz [] locks) ∧
      (p.openFb rec = true →
        ∃ q : Part, exec .commandTransmit s = .next { s with part := q } ∧
          q.zone z =
            { (p.zone z).releasingFrom rec p.ring.ringTime with
              flank := (q.zone z).flank, lastBranch := (q.zone z).lastBranch } ∧
          (q.zone sz).state = .reserved ∧ (q.zone sz).occupant = some x ∧ (q.train x).reserved = some sz ∧
          q.rs.setting = none ∧ q.rs.requests = [] ∧ (q.device z).permit = .opened ∧
          q.rs.routes = p.rs.routes ++
            [{ zone := z, train := x, branch := br, succ := sz, locks := locks, phase := .committed }] ∧
          ((p.mgmt.queueEvent p.ring.ringTime (some z) (some x) (.routeSet br)).queueEvent p.ring.ringTime (some z)
            (some x) (.trainReleased false)).events <+: q.mgmt.events)) ∧
  (∀ (s : State) (older younger : List Request) (rq : Request) (sz : ZoneId) (rec : ZoneRec) (br : Branch)
      (locks tail : List Claim), s.part.isLive = true → isDue s.part.ring.ringTime s.part.dsp.expiry = true →
      let p := { s.part with dsp := { s.part.dsp with gap := .met, expiry := none } }
      let z := rq.zone
      let x := rq.train
      let reserved := p.reservedFor sz x
      let becomes := fun (made : Part) =>
        (∃ q : Part, exec .gapExpiry s = .next { s with part := q } ∧ made.mgmt.events <+: q.mgmt.events) ∧
          (made.rs.setting.isSome = true ∨ (∀ o ∈ made.rs.requests, made.ready o = none) →
            exec .gapExpiry s = .next { s with part := made })
      p.rs.requests = older ++ rq :: younger → (∀ o ∈ older, p.ready o = none) → p.rs.setting = none →
      p.ready rq = some br → p.store.zones[z] = some rec →
      p.routeRec z br = some { zone := z, branch := br, claims := .reserve sz :: (locks ++ tail) } →
      reserved.ClaimsMet locks →
      (tail = [] → (rq.origin = .level → (p.device z).asSent ≠ some .hold) →
        (rq.origin = .autoEntry → p.mc.mode ≠ .runManual) → (p.openFb rec = false ∨ (p.zone z).state = .moving) →
        ∃ made, reserved.RouteMade made z rec x br sz [] locks ∧ becomes made) ∧
      (∀ n pos rest i srec, tail = .switch n pos :: rest → p.switchOf n = some i → p.store.switches[i] = some srec →
        (∀ pos', Claim.switch n pos' ∉ locks) →
        ((p.locksRead srec pos).1 = false →
          ∃ made, reserved.ClaimsTaken made (locks ++ [.switch n pos]) ∧ reserved.SettingKeeps made ∧
            made.rs.setting =
              some { zone := z, train := x, origin := rq.origin, branch := br, index := locks.length + 1 } ∧
            made.rs.stack = .switch n pos :: (locks.reverse ++ [.reserve sz]) ∧
            made.rs.timer = some (p.ring.ringTime + BitVec.ofNat 32 (p.store.params.switchLimit.toNat * 10)) ∧
            made.rs.requests = p.rs.requests ∧ made.mgmt = p.mgmt ∧ becomes made) ∧
        (p.locksRead srec pos = (true, true) →
          ∃ taken out made, reserved.ClaimsTaken taken (locks ++ [.switch n pos]) ∧
            out = { reserved with
              trk := taken.trk
              rs := { reserved.rs with switches := taken.rs.switches.set i { taken.switch i with inService := false } } } ∧
            out.SettingUndone made ((Claim.reserve sz :: (locks ++ [.switch n pos])).map (fun c => (x, c)))
              (p.rs.requests.filter (fun o => o.zone != z))
              ((p.mgmt.queueEvent p.ring.ringTime (some z) (some x) (.switchFault .bothLocks n)).queueEvent
                p.ring.ringTime (some z) (some x) (.routeFailed .switchLocks)) ∧
            becomes made)))

/-- A request is ready, with the branch to set, under the conditions of R69 and no others: a mode that may release, its
train's head zone HELD, or MOVING for an AUTO_ENTRY request, no route out of it for the train, a branch from branch
selection, every ready input of a STATION or LAUNCH active and the dispatch gap of a STATION MET or no dispatch yet
(R109, R110). A RESERVE is claimable on a FREE zone with flank count 0, a FLANK on a FREE or flank-locked zone, a SWITCH
on a switch in service that nobody holds, or that 1 to 7 routes hold in the position asked for (R70). The branch rule
gives the branch (R71): a zone without successor B gives A; FIXED_A A, ALTERNATE the branch other than the last, DIVERT
B for a set divert mark, each only if it is available; FIRST_FREE the first that is. That the oldest ready request is
the one started is stated in ClaimsRunToASetRoute. An AUTO_ENTRY request is ready in a HELD zone too, as R69 has it,
against R121 (the choice of assumption log 29). Rests on assumption log 29. -/
def Obligations.ClaimsAndBranchesAreTested : Prop :=
  (∀ (p : Part) (rq : Request) (br : Branch),
      p.ready rq = some br ↔
        (p.mc.mode = .runAuto ∨ p.mc.mode = .runManual ∨ p.mc.mode = .maint) ∧
        (p.train rq.train).head = some rq.zone ∧ (p.zone rq.zone).occupant = some rq.train ∧
        ((p.zone rq.zone).state = .held ∨ (p.zone rq.zone).state = .moving ∧ rq.origin = .autoEntry) ∧
        (∀ r ∈ p.rs.routes, ¬(r.zone = rq.zone ∧ r.train = rq.train)) ∧
        ∃ rec, p.store.zones[rq.zone] = some rec ∧ p.selectBranch rq.zone rec rq.train = some br ∧
          (rec.kind = .station ∨ rec.kind = .launch → ∀ ref ∈ rec.ready, p.level ref = true) ∧
          (rec.kind = .station → p.dsp.last = none ∨ p.dsp.gap = .met)) ∧
  (∀ p : Part,
      (∀ r, p.claimable (.reserve r) = true ↔ (p.zone r).state = .free ∧ (p.zone r).flank = 0) ∧
      (∀ f, p.claimable (.flank f) = true ↔ (p.zone f).state = .free ∨ 0 < (p.zone f).flank) ∧
      (∀ n i pos, p.switchOf n = some i →
        (p.claimable (.switch n pos) = true ↔
          (p.switch i).inService = true ∧
            ((p.switch i).holders = 0 ∨
              1 ≤ (p.switch i).holders ∧ (p.switch i).holders ≤ 7 ∧ (p.switch i).commanded = some pos)))) ∧
  (∀ (p : Part) (z : ZoneId) (rec : ZoneRec) (x : TrainId),
      let free := fun (br : Branch) => ∃ r, p.routeRec z br = some r ∧ ∀ c ∈ r.claims, p.claimable c = true
      let gives := fun (br : Branch) =>
        (free br → p.selectBranch z rec x = some br) ∧ (¬free br → p.selectBranch z rec x = none)
      (rec.succB = none → gives .a) ∧
      (rec.succB ≠ none → rec.rule = .fixedA → gives .a) ∧
      (rec.succB ≠ none → rec.rule = .alternate → gives (if (p.zone z).lastBranch = .a then .b else .a)) ∧
      (rec.succB ≠ none → rec.rule = .divert → gives (if (p.train x).divert then .b else .a)) ∧
      (rec.succB ≠ none → rec.rule = .firstFree →
        (free .a → p.selectBranch z rec x = some .a) ∧
        (¬free .a → free .b → p.selectBranch z rec x = some .b) ∧
        (¬free .a → ¬free .b → p.selectBranch z rec x = none)))

/-! ## Expiries -/

/-- The trap expiry of a MOVING zone whose trap is PENDING (R52): speed 0, trap EXPIRED, the limit stretched to twice
T_max, TRAP_EXPIRED and, where v_min is above 0, UNDERSPEED queued at the expiry time; nothing else changes. Not due, it
is not taken. Rests on assumption log 5, 12 and 27. -/
def Obligations.TrapExpiryStretchesTheLimit : Prop :=
  ∀ (s : State) (z : ZoneId) (rec : ZoneRec) (t : RingTime), s.part.isLive = true →
    (s.part.zone z).trapExpiry = some t → s.part.store.zones[z] = some rec →
    ((s.part.zone z).state = .moving → (s.part.zone z).trap = .pending → atOrAfter s.part.ring.ringTime t = true →
      ((s.part.zone z).transitExpiry = none ∨ ∃ u, (s.part.zone z).transitExpiry = some u ∧
        (atOrAfter s.part.ring.ringTime u = false ∨ atOrAfter u t = true)) →
      ∃ p : Part, exec (.trapExpiry z) s = .next { s with part := p } ∧
        p = { s.part with trk := p.trk, mgmt := p.mgmt } ∧
        (∀ w, w ≠ z → p.zone w = s.part.zone w) ∧
        (let d := s.part.zone z
          let longer := fun (u : RingTime) => u + BitVec.ofNat 32 (rec.tMax.toNat * 10)
          p.zone z =
            { d with speed := some 0, trap := .expired, trapExpiry := none, deadline := d.deadline.map longer
                     remainder := d.remainder.map longer
                     transitExpiry := if d.remainder.isSome then d.transitExpiry
                       else d.deadline.map (fun u => longer u + s.part.periods 1) }) ∧
        (∀ x, p.train x =
          if (s.part.zone z).occupant = some x then { s.part.train x with lastSpeed := some 0 } else s.part.train x) ∧
        p.mgmt =
          (let m := s.part.mgmt.queueEvent t (some z) (s.part.zone z).occupant .trapExpired
            if 0 < rec.vMin.toNat then m.queueEvent t (some z) (s.part.zone z).occupant (.underspeed 0) else m)) ∧
    (atOrAfter s.part.ring.ringTime t = false → exec (.trapExpiry z) s = .next s)

/-- The transit expiry of a MOVING zone (R41) and the release timer of a RELEASING one (R42), due and taken outside
CONFIG, make tracking faults LOST and STUCK with every effect of R43 and R131; only LOST makes the train LOST. Not due,
neither is taken. Rests on assumption log 5, 12 and 27. -/
def Obligations.ExpiredTransitsAndReleasesAreFaulted : Prop :=
  ∀ (s : State) (z : ZoneId) (x : TrainId) (t : RingTime), s.part.isLive = true → s.part.mc.mode ≠ .config →
    (s.part.zone z).occupant = some x →
    ((s.part.zone z).state = .moving → (s.part.zone z).transitExpiry = some t →
      (atOrAfter s.part.ring.ringTime t = true →
          ((s.part.zone z).trapExpiry = none ∨
            ∃ a, (s.part.zone z).trapExpiry = some a ∧
              (atOrAfter s.part.ring.ringTime a = false ∨ atOrAfter t a = false)) →
        ∃ q : Part, exec (.transitExpiry z) s = .next { s with part := q } ∧ s.part.FaultedTo q z x .lost t ∧
          (q.train x).state = .lost) ∧
      (atOrAfter s.part.ring.ringTime t = false → exec (.transitExpiry z) s = .next s)) ∧
    ((s.part.zone z).state = .releasing → (s.part.zone z).releaseTimer = some t →
      (atOrAfter s.part.ring.ringTime t = true →
        ∃ q : Part, exec (.releaseTimer z) s = .next { s with part := q } ∧ s.part.FaultedTo q z x .stuck t ∧
          (q.train x).state = (s.part.train x).state) ∧
      (atOrAfter s.part.ring.ringTime t = false → exec (.releaseTimer z) s = .next s))

/-- The switch timer of a waiting claim (R76): the switch is out of service, the requests of the zone being set are
gone; and where no other request waits, the Route Setter is IDLE with an empty stack, every claim of the stack is
released (R77: the successor is FREE again, every holder and flank count lower by the claims on it), SWITCH_FAULT with
reason TIMEOUT and ROUTE_FAILED with reason SWITCH_TIMEOUT are queued, and no mode, permit or cause changes. Rests on
assumption log 5 and 12. -/
def Obligations.SwitchTimerTakesTheSwitchOutOfService : Prop :=
  ∀ (s : State) (sg : Setting) (n : NodeId) (pos : Branch) (below : List Claim) (i : SwitchId) (t : RingTime),
    s.part.isLive = true → s.part.rs.setting = some sg → s.part.rs.timer = some t →
    atOrAfter s.part.ring.ringTime t = true → s.part.rs.stack = .switch n pos :: below →
    s.part.switchOf n = some i →
    let off := s.part.rs.switches.set i { s.part.switch i with inService := false }
    ∃ p : Part, exec .switchTimer s = .next { s with part := p } ∧ (p.switch i).inService = false ∧
      (∀ q ∈ p.rs.requests, q ∈ s.part.rs.requests ∧ q.zone ≠ sg.zone) ∧ p.mc = s.part.mc ∧
      p.ring = s.part.ring ∧ p.store = s.part.store ∧
      ((∀ q ∈ s.part.rs.requests, q.zone = sg.zone) →
        p.rs.setting = none ∧ p.rs.stack = [] ∧ p.rs.timer = none ∧ p.rs.requests = [] ∧
        p.rs.routes = s.part.rs.routes ∧ p.devices = s.part.devices ∧
        Part.ClaimsFreed { s.part with rs := { s.part.rs with switches := off } } p s.part.stacked ∧
        p.mgmt =
          (s.part.mgmt.queueEvent s.part.ring.ringTime (some sg.zone) (some sg.train) (.switchFault .timeout n)).queueEvent
            s.part.ring.ringTime (some sg.zone) (some sg.train) (.routeFailed .switchTimeout))

/-- The supervision timer of a device (R101): the device is FAULTED with its latch set, DEVICE_FAULT is queued with
the first reason that fits, and the ride is held with cause DEVICE; the zones and the other devices keep what a raise
keeps. Rests on assumption log 5 and 12. -/
def Obligations.SupervisionTimerFaultsTheDevice : Prop :=
  ∀ (s : State) (z : ZoneId) (rec : ZoneRec) (t : RingTime), s.part.isLive = true → s.part.mc.mode ≠ .config →
    (s.part.device z).timer = some t → s.part.store.zones[z] = some rec → atOrAfter s.part.ring.ringTime t = true →
    (∀ w, w < z → isDue s.part.ring.ringTime (s.part.device w).timer = false) →
    let reason : DeviceFailure :=
      if s.part.openFb rec = true ∧ s.part.closedFb rec = true then .bothFeedback
      else if (s.part.device z).sup = .deviating then .uncommanded
      else if (s.part.device z).forwarded = some .release then .noOpen
      else .noClose
    let judged :=
      { s.part with devices := s.part.devices.set z { s.part.device z with sup := .faulted, timer := none, latch := true }
                    mgmt := s.part.mgmt.queueEvent t (some z) (s.part.zone z).occupant (.deviceFault reason) }
    ∃ p : Part, exec (.supervisionTimer z) s = .next { s with part := p } ∧ judged.RaisedTo p .device

/-- The expiries of the Dispatch Unit. The gap expiry (R61) makes the gap MET and wakes the Route Setter: with a setting
in progress or no request queued nothing else changes, and a request that is not ready changes nothing either. The
refusal expiry of the first request for a zone (R112): a request being set, or one whose station conditions hold, is
tested again one cycle period and a tick later; an inactive ready input, and then in a STATION a running gap, is
reported once. Nothing else changes. Not due, the gap expiry is not taken. Rests on assumption log 5, 12 and 27. -/
def Obligations.GapAndRefusalExpiriesAct : Prop :=
  (∀ s : State, s.part.isLive = true →
      let p := { s.part with dsp := { s.part.dsp with gap := .met, expiry := none } }
      (isDue s.part.ring.ringTime s.part.dsp.expiry = true →
        (s.part.rs.setting.isSome = true ∨ ∀ q ∈ s.part.rs.requests, p.ready q = none) →
        exec .gapExpiry s = .next { s with part := p }) ∧
      (isDue s.part.ring.ringTime s.part.dsp.expiry = true →
        ∃ q : Part, exec .gapExpiry s = .next { s with part := q } ∧ q.store = p.store ∧ q.lines = p.lines ∧
          q.ring = p.ring ∧ q.mc = p.mc ∧ q.cls = p.cls) ∧
      (isDue s.part.ring.ringTime s.part.dsp.expiry = false → exec .gapExpiry s = .next s)) ∧
  (∀ (s : State) (z : ZoneId) (rec : ZoneRec) (q : Request) (t : RingTime), s.part.isLive = true →
      s.part.rs.requests.find? (fun r => r.zone == z) = some q → q.refusal = some t → s.part.store.zones[z] = some rec →
      atOrAfter s.part.ring.ringTime t = true → isDue s.part.ring.ringTime s.part.dsp.expiry = false →
      let touch := fun (f : Request → Request) =>
        let requests := s.part.rs.requests.map (fun r => if r.zone = z then f r else r)
        { s.part with rs := { s.part.rs with requests := requests } }
      let again := touch (fun r => { r with refusal := some (s.part.ring.ringTime + (s.part.periods 1 + 1)) })
      let reported := touch (fun r => { r with reported := true, refusal := none })
      let refusedFor := fun (reason : Refused) =>
        { reported with mgmt := s.part.mgmt.queueEvent t (some z) (some q.train) (.dispatchRefused reason) }
      let set := s.part.rs.setting.any (fun g => g.zone == z)
      let gap := rec.kind = .station ∧ s.part.dsp.last.isSome = true ∧ s.part.dsp.gap = .running
      (set = true → exec (.refusalExpiry z) s = .next { s with part := again }) ∧
      (∀ i, set = false → s.part.firstInactive rec = some i →
        exec (.refusalExpiry z) s = .next { s with part := refusedFor (.notReady i) }) ∧
      (set = false → s.part.firstInactive rec = none → gap →
        exec (.refusalExpiry z) s = .next { s with part := refusedFor .gap }) ∧
      (set = false → s.part.firstInactive rec = none → ¬gap →
        exec (.refusalExpiry z) s = .next { s with part := again }))

/-- A due broadcast repetition with the latch set requests an injection and runs on from now; a due LINK_FAULT
repetition makes a frame pending, counts it, saturating, and runs on from now; not due, neither is taken (R152, R160).
The silence timer makes the condition present and does not run on, the field-link timer also makes the first LINK_FAULT
frame pending; each queues its record at the expiry time and raises its cause, which in CONFIG changes nothing more
(R158 to R161). Rests on assumption log 5, 12 and 27. -/
def Obligations.RepetitionAndMonitorTimersAct : Prop :=
  (∀ s : State, s.part.isLive = true →
      (isDue s.part.ring.ringTime s.part.ring.bcastTimer = true → s.part.mc.latch = true →
        exec .broadcastRepetition s =
          .next { s with part := { s.part with ring :=
            { s.part.ring with bcastPending := true
                               bcastTimer := some (s.part.ring.ringTime + s.part.periods 1) } } }) ∧
      (isDue s.part.ring.ringTime s.part.ring.bcastTimer = false → exec .broadcastRepetition s = .next s) ∧
      (isDue s.part.ring.ringTime s.part.ring.repTimer = true →
        exec .linkFaultRepetition s =
          .next { s with part := { s.part with ring :=
            { s.part.ring with
              linkFaultPending := true, repTimer := some (s.part.ring.ringTime + s.part.periods 1)
              linkFaultCount := if s.part.ring.linkFaultCount = 0xFFFF then 0xFFFF
                else s.part.ring.linkFaultCount + 1 } } }) ∧
      (isDue s.part.ring.ringTime s.part.ring.repTimer = false → exec .linkFaultRepetition s = .next s)) ∧
  (∀ (s : State) (t : RingTime), s.part.isLive = true → atOrAfter s.part.ring.ringTime t = true →
      (s.part.ring.silenceTimer = some t →
        let p := { s.part with
          ring := { s.part.ring with silent := true, silenceTimer := none }
          mgmt := s.part.mgmt.queueEvent t none none (.silence s.part.ring.lastCycleStart) }
        (s.part.mc.mode = .config → exec .silenceTimer s = .next { s with part := p }) ∧
        (s.part.mc.mode ≠ .config →
          ∃ q : Part, exec .silenceTimer s = .next { s with part := q } ∧ p.RaisedTo q .silence)) ∧
      (s.part.ring.linkTimer = some t →
        let p := { s.part with
          ring :=
            { s.part.ring with linkDown := true, linkTimer := none, linkFaultPending := true, linkFaultCount := 1
                               repTimer := some (s.part.ring.ringTime + s.part.periods 1) }
          mgmt := s.part.mgmt.queueEvent t none none (.linkFault s.part.ring.lastFinStart) }
        (s.part.mc.mode = .config → exec .fieldLinkTimer s = .next { s with part := p }) ∧
        (s.part.mc.mode ≠ .config →
          ∃ q : Part, exec .fieldLinkTimer s = .next { s with part := q } ∧ p.RaisedTo q .fieldLink)))

/-! ## Lines and supply -/

/-- The MAINT_KEY line is read as it stands; its loss in MAINT holds the ride with cause KEY, and no other change of
it does anything (R134). The supply warning raises SUPPLY at the moment it begins, outside CONFIG, and ends without a
further effect (R135). Rests on assumption log 6. -/
def Obligations.TheKeyAndTheSupplyRaiseTheirCauses : Prop :=
  (∀ (s : State) (level : Bool),
      let p := { s.part with lines := { s.part.lines with maintKey := level } }
      (s.part.isLive = true → s.part.mc.mode = .maint → s.part.lines.maintKey = true → level = false →
        ∃ q : Part, exec (.maintKeyChange level) s = .next { s with part := q } ∧ p.RaisedTo q .key) ∧
      (¬(s.part.isLive = true ∧ s.part.mc.mode = .maint ∧ s.part.lines.maintKey = true ∧ level = false) →
        exec (.maintKeyChange level) s = .next { s with part := p })) ∧
  (∀ s : State, s.part.isLive = true →
      let p := { s.part with lines := { s.part.lines with supplyWarn := true } }
      (s.part.lines.supplyWarn = true → exec .supplyWarnBegin s = .next s) ∧
      (s.part.lines.supplyWarn = false → s.part.mc.mode = .config → exec .supplyWarnBegin s = .next { s with part := p }) ∧
      (s.part.lines.supplyWarn = false → s.part.mc.mode ≠ .config →
        ∃ q : Part, exec .supplyWarnBegin s = .next { s with part := q } ∧ p.RaisedTo q .supply) ∧
      exec .supplyWarnEnd s =
        .next { s with part := { s.part with lines := { s.part.lines with supplyWarn := false } } })

/-! ## Reports: edges and tracking -/

/-- A report of a field node becomes the node's latest levels and last edge counter, ends an outage of the field link
and joins the upstream queue; the levels and counters of the other nodes, the store, the lines, ring time, the
downstream path, the responses and the precedence record stay (R26, R45, R149, R159). Rests on assumption log 11. -/
def Obligations.AReportSetsTheLevelsOfItsNode : Prop :=
  ∀ (s : State) (f : Frame) (r : Report), s.part.hears .fIn = true → f.ftype = typeReport → reportOf f = some r →
    ∃ p : Part, exec (.reportFrame f) s = .next { s with part := p } ∧
      p.cls.levels[r.node] = some r.levels ∧ p.cls.lastCounter[r.node] = some r.counter ∧
      (∀ n : NodeId, n ≠ r.node →
        p.cls.levels[n] = s.part.cls.levels[n] ∧ p.cls.lastCounter[n] = s.part.cls.lastCounter[n]) ∧
      p.ring =
        { (s.part.frameTaken .fIn).ring with
          up := if s.part.ring.up.length < 16 then s.part.ring.up ++ [f] else s.part.ring.up
          linkDown := false
          repTimer := if s.part.ring.linkDown then none else s.part.ring.repTimer
          linkFaultPending := if s.part.ring.linkDown then false else s.part.ring.linkFaultPending
          linkTimer := if s.part.ring.linkDown then some (s.part.ring.ringTime + s.part.periods 2)
            else s.part.ring.linkTimer
          bcastPending := p.ring.bcastPending, bcastTimer := p.ring.bcastTimer } ∧
      p.store = s.part.store ∧ p.lines = s.part.lines ∧ p.cnt.cIn = s.part.cnt.cIn ∧ p.cnt.fOut = s.part.cnt.fOut ∧
      p.mgmt.responses = s.part.mgmt.responses ∧ p.mgmt.precedence = s.part.mgmt.precedence ∧
      p.mgmt.frameError = s.part.mgmt.frameError ∧ p.mgmt.reporting = s.part.mgmt.reporting

/-- The entries of zone `z`: a report whose one edge is its rising TRAP_A edge. Where the zone is RESERVED for a train
whose head zone is RELEASING, with no tail zone, the entry is normal: the zone is MOVING at the edge's clamped time,
with a deadline T_max later, and is the train's head; the zone it leaves stays RELEASING and is its tail (R30, R52,
R56). A LIFT entered while its CLOSED_FB reads active is paused from the start (R58), and a pass-through BLOCK or LIFT
zone entered in RUN_AUTO posts an AUTO_ENTRY request (R65). The whole state is stated for a node with no other input,
where the request, like every other, is not ready or must wait for a setting in progress; the limits have not passed
already. Where the zone is FREE, MOVING, HELD or RELEASING, or RESERVED for a train whose head zone is not RELEASING,
the entry is UNEXPECTED_ENTRY, and where it is RESERVED for a train with a tail zone OVERLAP_EXCEEDED: the zone faults
and the ride is held in the step that takes the report, with every effect of R43 for a node with no other input (R31,
R43, R131). In an UNARMED, OUT_OF_SERVICE or FAULT zone the entry changes the levels alone (R31). Rests on assumption
log 5, 11 and 12. -/
def Obligations.EntriesMoveTheTrainOrHoldTheRide : Prop :=
  ∀ (s : State) (f : Frame) (r : Report) (g : Edge) (z : ZoneId) (rec : ZoneRec),
    s.part.TakesEdge f r g z rec .trapA → g.rising = true →
    let p := s.part.reportRead r
    let t := clampTime p.ring.ringTime g.time
    let deadline := t + BitVec.ofNat 32 (rec.tMax.toNat * 10)
    let paused := rec.kind = .lift ∧ p.closedFb rec = true
    let auto := p.mc.mode = .runAuto ∧ (rec.kind = .block ∨ rec.kind = .lift) ∧ rec.passThrough = true
    let d := p.zone z
    let quiet := s.part.edgeQuiet = true ∧ s.part.NoDeviceOn r.node ∧ s.part.NoSwitchOn r.node ∧
      s.part.NoEstopOn r.node ∧ s.part.NoReadyOn r.node
    (∀ (from' : ZoneId) (x : TrainId), (s.part.zone z).state = .reserved → (s.part.zone z).occupant = some x →
      (s.part.train x).head = some from' → (s.part.train x).tail = none → (s.part.zone from').state = .releasing →
      s.part.edgeQuiet = true → atOrAfter p.ring.ringTime (deadline + p.periods 1) = false →
      (rec.trapB = none ∨ atOrAfter p.ring.ringTime (t + 65535) = false) →
      let moving :=
        { p.zone z with
          state := .moving, occupant := some x, epoch := (p.zone z).epoch + 1, entryTime := some t, speed := none
          deadline := some deadline
          trap := if rec.trapB.isSome then .pending else .none
          trapExpiry := if rec.trapB.isSome then some (t + 65535) else none
          pauseMark := decide paused
          remainder := if paused then some (BitVec.ofNat 32 (rec.tMax.toNat * 10)) else none
          transitExpiry := if paused then none else some (deadline + p.periods 1) }
      let train := { p.train x with head := some z, tail := some from', reserved := none }
      let request : Request :=
        { zone := z, train := x, origin := .autoEntry, posted := t, reported := false, refusal := none }
      let requests := if auto then p.rs.requests ++ [request] else p.rs.requests
      let entered :=
        { p with
          trk := { zones := p.trk.zones.set z moving, trains := p.trk.trains.set x train }
          rs := { p.rs with requests := requests }
          mgmt := p.mgmt.queueEvent t (some z) (some x) (.zoneEntered from') }
      (∃ q : Part, exec (.reportFrame f) s = .next { s with part := q } ∧
        q.zone z = { moving with flank := (q.zone z).flank, lastBranch := (q.zone z).lastBranch } ∧
        (q.train x).head = some z ∧ (q.train x).tail = some from' ∧ (q.zone from').state = .releasing ∧
        entered.mgmt.events <+: q.mgmt.events) ∧
      (s.part.NoDeviceOn r.node → s.part.NoSwitchOn r.node → s.part.NoEstopOn r.node → s.part.NoReadyOn r.node →
        (p.rs.setting.isSome = true ∨ ∀ rq ∈ requests, entered.ready rq = none) →
        exec (.reportFrame f) s = .next { s with part := entered.joinedUp f })) ∧
    (∀ reason : FaultReason,
      (d.state = .free ∨ d.state = .moving ∨ d.state = .held ∨ d.state = .releasing) ∧ reason = .unexpectedEntry ∨
        d.state = .reserved ∧
          (∃ x, d.occupant = some x ∧
            ((p.train x).tail.isSome = true ∧ reason = .overlapExceeded ∨
              (p.train x).tail = none ∧ reason = .unexpectedEntry ∧
                ∀ h, (p.train x).head = some h → (p.zone h).state ≠ .releasing)) →
      (∃ q : Part, exec (.reportFrame f) s = .next { s with part := q } ∧ q.HeldAll .tracking ∧
        (q.zone z).state = .fault ∧ (q.zone z).reason = some reason ∧ (q.zone z).epoch = d.epoch + 1 ∧
        (q.zone z).occupant = if d.occupant.any (fun x => (p.train x).tail == some z) then none else d.occupant) ∧
      (∀ x, quiet → d.occupant = some x →
        ∃ q : Part, exec (.reportFrame f) s = .next { s with part := q.joinedUp f } ∧ p.FaultedTo q z x reason t ∧
          (q.train x).state = (p.train x).state)) ∧
    (d.state = .unarmed ∨ d.state = .outOfService ∨ d.state = .fault → quiet →
      exec (.reportFrame f) s = .next { s with part := p.joinedUp f })

/-- The edges that move the limit of a transit, each the one rising edge of a report, in a MOVING zone. A TRAP_B edge
with the trap PENDING measures the speed (R53), or expires a trap of more than 65,535 ticks; the speed is the zone's and
its train's last one, the deadline grows by the stretch of R55 with the transit expiry, or with the remainder of a
paused lift (R56, R60), and OVERSPEED holds the ride while UNDERSPEED is only recorded (R54). A CLOSED_FB edge pauses a
LIFT that is not paused, an OPEN_FB edge resumes a paused one, and neither does anything else to a zone (R38, R58, R59).
The whole state is stated for a node with no switch, e-stop or ready input, where no expiry is due afterwards. Rests on
assumption log 11 and 12. -/
def Obligations.TrapAndLiftEdgesMoveTheLimit : Prop :=
  ∀ (s : State) (f : Frame) (r : Report) (g : Edge) (z : ZoneId) (rec : ZoneRec), g.rising = true →
    s.part.edgeQuiet = true → s.part.NoSwitchOn r.node → s.part.NoEstopOn r.node → s.part.NoReadyOn r.node →
    let p := s.part.reportRead r
    let t := clampTime p.ring.ringTime g.time
    let d := p.zone z
    let zoned := fun (d : ZoneDyn) => { p with trk := { p.trk with zones := p.trk.zones.set z d } }
    let supervised := fun (made : Part) =>
      ∃ q : Part, exec (.reportFrame f) s = .next { s with part := q.joinedUp f } ∧
        q = { made with devices := q.devices, cnt := q.cnt, mgmt := q.mgmt } ∧
        (p.store.params.slowThreshold = 0 → q.mgmt = made.mgmt)
    d.state = .moving →
    (∀ a, s.part.TakesEdge f r g z rec .trapB → s.part.NoDeviceOn r.node → d.trap = .pending → d.entryTime = some a →
      let dt := elapsed a t
      let expired := 65535 < dt
      let v : Nat :=
        if expired then 0 else if dt = 0 then 65000 else min (rec.trapGap.toNat * 10000 / dt) 65000
      let speed : BitVec 16 := BitVec.ofNat 16 v
      let tMax := rec.tMax.toNat
      let limit :=
        if v = 0 then 2 * tMax
        else if rec.vRef.toNat ≤ v then tMax
        else min (2 * tMax) (tMax * rec.vRef.toNat / v)
      let longer := fun (u : RingTime) => u + BitVec.ofNat 32 ((limit - tMax) * 10)
      let measured :=
        { d with speed := some speed, trap := if expired then .expired else .done, trapExpiry := none
                 deadline := d.deadline.map longer, remainder := d.remainder.map longer
                 transitExpiry := if d.remainder.isSome then d.transitExpiry
                   else d.deadline.map (fun u => longer u + p.periods 1) }
      let timed :=
        match d.occupant with
        | none => zoned measured
        | some x => (zoned measured).modTrain x (fun tr => { tr with lastSpeed := some speed })
      let note := fun (m : Mgmt) (body : EventBody) =>
        m.queueEvent (if expired then a + 65535 else t) (some z) d.occupant body
      let found := if expired then note p.mgmt .trapExpired else p.mgmt
      isDue p.ring.ringTime measured.transitExpiry = false →
      (v ≤ rec.vMax.toNat →
        let warned := if v < rec.vMin.toNat then note found (.underspeed speed) else found
        exec (.reportFrame f) s = .next { s with part := ({ timed with mgmt := warned } : Part).joinedUp f }) ∧
      (rec.vMax.toNat < v →
        ∃ q : Part, exec (.reportFrame f) s = .next { s with part := q.joinedUp f } ∧
          Part.RaisedTo { timed with mgmt := note found (.overspeed speed) } q .overspeed)) ∧
    (∀ dl, s.part.TakesEdge f r g z rec .closedFb → s.part.OnlyDevice z rec → d.deadline = some dl →
      supervised (zoned
        (if rec.kind = .lift ∧ d.remainder = none then
          { d with remainder := some (BitVec.ofNat 32 (elapsed t dl)), transitExpiry := none, pauseMark := true }
        else d))) ∧
    (s.part.TakesEdge f r g z rec .openFb → s.part.OnlyDevice z rec →
      (rec.kind ≠ .lift ∨ d.remainder = none → supervised p) ∧
      (∀ rem, rec.kind = .lift → d.remainder = some rem →
        atOrAfter p.ring.ringTime (t + rem + p.periods 1) = false →
        supervised (zoned
          { d with deadline := some (t + rem), remainder := none
                   transitExpiry := some (t + rem + p.periods 1) })))

/-- The STOP and CLEAR edges, each the one edge of a report. A rising STOP edge of a MOVING zone after its deadline is a
LATE_ARRIVAL (R57), in a FREE or RESERVED zone an UNEXPECTED_PRESENCE (R35), and the falling CLEAR edge of a RELEASING
zone that is not the tail zone of its train a CLEAR_BEFORE_ENTRY (R40): the zone faults and the ride is held, with every
effect of R43 for a node with no other input. In a FAULT zone with reason LOST a STOP edge queues LATE_STOP and does
nothing else (R44). On time over a closed device it makes the zone HELD with no timer running, with EARLY_ARRIVAL before
TRAIN_HELD below T_min (R34, R57); so also over an open device with no SET route, where the report starts no route
(which would release the train again at once, R36); on time over an open device with a SET route the train passes
through: the zone is RELEASING and the route COMMITTED, and where the report starts no route, or no other device reads
open, nothing is dispatched (R34, R37). A falling CLEAR edge of a RELEASING tail zone frees it, releases its route and
closes its permit (R40, R83; stated where no request waits). Rests on assumption log 5, 11, 12 and, where STOP is not on
the hold node, 24. -/
def Obligations.StopAndClearEdgesEndATransit : Prop :=
  ∀ (s : State) (f : Frame) (r : Report) (g : Edge) (z : ZoneId) (rec : ZoneRec) (x : TrainId) (dl : RingTime),
    let p := s.part.reportRead r
    let t := clampTime p.ring.ringTime g.time
    let d := p.zone z
    let passes := p.openFb rec = true ∧ ∃ rt ∈ p.rs.routes, rt.zone = z ∧ rt.train = x ∧ rt.phase = .set
    let quiet := s.part.edgeQuiet = true ∧ s.part.NoDeviceOn r.node ∧ s.part.NoSwitchOn r.node ∧
      s.part.NoEstopOn r.node ∧ s.part.NoReadyOn r.node
    let faults := fun (reason : FaultReason) =>
      (∃ q : Part, exec (.reportFrame f) s = .next { s with part := q } ∧ q.HeldAll .tracking ∧
        (q.zone z).state = .fault ∧ (q.zone z).reason = some reason ∧ (q.zone z).epoch = d.epoch + 1 ∧
        (q.zone z).occupant = if d.occupant.any (fun y => (p.train y).tail == some z) then none else d.occupant) ∧
      (quiet → d.occupant = some x →
        ∃ q : Part, exec (.reportFrame f) s = .next { s with part := q.joinedUp f } ∧ p.FaultedTo q z x reason t ∧
          (q.train x).state = (p.train x).state)
    (s.part.TakesEdge f r g z rec .stop → g.rising = true →
      (d.state = .free ∨ d.state = .reserved → faults .unexpectedPresence) ∧
      (d.state = .fault → d.reason = some .lost → quiet →
        exec (.reportFrame f) s =
          .next { s with part :=
            ({ p with mgmt := p.mgmt.queueEvent t (some z) d.occupant .lateStop } : Part).joinedUp f })) ∧
    (s.part.TakesEdge f r g z rec .clear → g.rising = false → d.state = .releasing → d.occupant = some x →
      (p.train x).tail ≠ some z → faults .clearBeforeEntry) ∧
    (s.part.TakesEdge f r g z rec .stop → g.rising = true → d.state = .moving → d.occupant = some x →
      d.deadline = some dl →
      (isAfter t dl = true → faults .lateArrival) ∧
      (∀ a, isAfter t dl = false → d.entryTime = some a →
        (p.openFb rec = false ∨ ¬passes ∧ p.NoRouteStarts r.node) →
        let early := d.pauseMark = false ∧ elapsed a t < rec.tMin.toNat * 10
        let arrived :=
          if early then p.mgmt.queueEvent t (some z) (some x) (.earlyArrival (elapsed a t / 10)) else p.mgmt
        ∃ q : Part, exec (.reportFrame f) s = .next { s with part := q } ∧
          q.zone z =
            { d with state := .held, epoch := d.epoch + 1, deadline := none, remainder := none, pauseMark := false
                     transitExpiry := none, trapExpiry := none, trap := if d.trap = .pending then .none else d.trap
                     flank := (q.zone z).flank, lastBranch := (q.zone z).lastBranch } ∧
          (arrived.queueEvent t (some z) (some x) (.trainHeld d.speed)).events <+: q.mgmt.events) ∧
      (isAfter t dl = false → passes → s.part.edgeQuiet = true →
        atOrAfter p.ring.ringTime (t + BitVec.ofNat 32 (rec.tClear.toNat * 10)) = false →
        ∃ q : Part, exec (.reportFrame f) s = .next { s with part := q } ∧
          (q.zone z).state = .releasing ∧ (q.zone z).epoch = d.epoch + 1 ∧
          (∀ a ∈ p.rs.routes, a.zone = z → a.train = x → { a with phase := .committed } ∈ q.rs.routes) ∧
          q.cnt.devices[z].operations = p.cnt.devices[z].operations + 1 ∧
          (p.NoRouteStarts r.node → q.zone z = { d.releasingFrom rec t with flank := (q.zone z).flank }) ∧
          (p.NoRouteStarts r.node ∨ p.OthersNotOpen z →
            q.dsp = p.dsp ∧ (q.train x).laps = (p.train x).laps))) ∧
    (s.part.TakesEdge f r g z rec .clear → g.rising = false → d.state = .releasing → d.occupant = some x →
      (p.train x).tail = some z → p.rs.setting = none → p.rs.requests = [] →
      ∃ q : Part, exec (.reportFrame f) s = .next { s with part := q } ∧
        q.zone z =
          { ZoneDyn.reset with
            state := .free, epoch := d.epoch + 1, lastBranch := d.lastBranch, flank := (q.zone z).flank } ∧
        (q.train x).tail = none ∧ (q.train x).head = (p.train x).head ∧ (q.device z).permit = .hold ∧
        (∀ a ∈ q.rs.routes, a ∈ p.rs.routes ∧ a.zone ≠ z) ∧
        (p.mgmt.queueEvent t (some z) (some x) .zoneCleared).events <+: q.mgmt.events)

/-- The rising OPEN_FB edge of a HELD zone, or a FAULT one, with a SET route (R36, R37): the zone is RELEASING from the
clamped time of the edge, the route COMMITTED, a LOST train PRESENT, the operation counted and TRAIN_RELEASED queued.
Out of a STATION it is a dispatch: the gap starts, the lap count rises, DISPATCHED is queued, and at the lap threshold
the service-due flag, divert mark and HEALTH_ALERT are set with SERVICE_DUE after the other records; out of a LAUNCH
DISPATCHED is queued with 0 (R61, R116, R117). Stated where neither limit has passed already; the whole zone and train
and the records where the report starts no other route, and the gap there or where no other device reads open, since
another route could be dispatched over an open device in the same event (R68, R78). A train whose lap count stands at
4,294,967,295 already is tested too (the choice of assumption log 28). Rests on assumption log 11, 12, 20 and 28. -/
def Obligations.AnOpenedDeviceReleasesAndDispatches : Prop :=
  ∀ (s : State) (f : Frame) (r : Report) (g : Edge) (z : ZoneId) (rec : ZoneRec) (x : TrainId) (rt : ActiveRoute),
    s.part.TakesEdge f r g z rec .openFb → g.rising = true →
    (s.part.zone z).state = .held ∨ (s.part.zone z).state = .fault → (s.part.zone z).occupant = some x →
    rt ∈ s.part.rs.routes → rt.zone = z → rt.train = x → rt.phase = .set → s.part.edgeQuiet = true →
    let p := s.part.reportRead r
    let t := clampTime p.ring.ringTime g.time
    let gap := p.store.params.dispatchGap.toNat
    let laps := if (p.train x).laps = 0xFFFFFFFF then 0xFFFFFFFF else (p.train x).laps + 1
    let threshold := p.store.params.lapThreshold.toNat
    let due := rec.kind = .station ∧ 0 < threshold ∧ threshold ≤ laps.toNat ∧ (p.train x).serviceDue = false
    let released := p.mgmt.queueEvent t (some z) (some x) (.trainReleased false)
    let dispatched := released.queueEvent t (some z) (some x) (.dispatched laps)
    atOrAfter p.ring.ringTime (t + BitVec.ofNat 32 (rec.tClear.toNat * 10)) = false →
    (gap = 0 ∨ atOrAfter p.ring.ringTime (t + BitVec.ofNat 32 (gap * 10)) = false) →
    ∃ q : Part, exec (.reportFrame f) s = .next { s with part := q } ∧
      (q.zone z).state = .releasing ∧ (q.zone z).epoch = (p.zone z).epoch + 1 ∧
      (∀ a ∈ p.rs.routes, a.zone = z → a.train = x → { a with phase := .committed } ∈ q.rs.routes) ∧
      q.cnt.devices[z].operations = p.cnt.devices[z].operations + 1 ∧
      (p.NoRouteStarts r.node →
        q.zone z = { (p.zone z).releasingFrom rec t with flank := (q.zone z).flank } ∧
        q.train x =
          { p.train x with
            state := if (p.train x).state = .lost then .present else (p.train x).state
            reserved := (q.train x).reserved
            laps := if rec.kind = .station then laps else (p.train x).laps
            serviceDue := if due then true else (p.train x).serviceDue
            divert := if due then true else (p.train x).divert }) ∧
      (p.NoRouteStarts r.node ∨ p.OthersNotOpen z →
        q.dsp =
          (if rec.kind ≠ .station then p.dsp
            else if gap = 0 then { last := some t, gap := .met, expiry := none }
            else { last := some t, gap := .running, expiry := some (t + BitVec.ofNat 32 (gap * 10)) })) ∧
      (s.part.OnlyDevice z rec → s.part.NoSwitchOn r.node → s.part.NoEstopOn r.node → s.part.NoReadyOn r.node →
        p.store.params.slowThreshold = 0 → (p.rs.requests = [] ∨ p.rs.setting.isSome = true) →
        q.mgmt =
          (if due then { dispatched.queueEvent t (some z) (some x) (.serviceDue laps) with healthAlert := true }
            else if rec.kind = .station then dispatched
            else if rec.kind = .launch then released.queueEvent t (some z) (some x) (.dispatched 0)
            else released))

/-- A report outside CONFIG whose edge counter is not the last one plus its edges (R45, R46). Every loaded zone with a
sensor or feedback input on the node that is MOVING or RELEASING faults with EDGE_LOSS before the edges of the report
are taken, the ride is held with cause TRACKING, and the edge-loss count of the node rises by 1; the last edge counter
becomes that of the report. For a report without edges, where one zone is concerned, the fault is whole, RESERVED zones
included, and where none is, nothing but the count changes; a count that comes to 65,535 with the flag of the node clear
sets the flag and HEALTH_ALERT and queues HEALTH_THRESHOLD with EDGE_LOSS after the other records (R181, R183). Rests on
assumption log 11 and 12. -/
def Obligations.LostEdgesFaultTheZonesOfTheNode : Prop :=
  ∀ (s : State) (f : Frame) (r : Report) (c : Byte), s.part.TakesReport f r → s.part.mc.mode ≠ .config →
    s.part.cls.lastCounter[r.node] = some c → c + BitVec.ofNat 8 r.edges.length ≠ r.counter →
    let p := s.part.reportRead r
    let touched := fun (z : ZoneId) =>
      ∃ rec : ZoneRec, p.store.zones[z] = some rec ∧
        r.node ∈ [rec.holdNode, rec.trapA.node, rec.stop.node, rec.clear.node] ++ rec.trapB.toList.map SensorRef.node
    let concerned := fun (z : ZoneId) =>
      touched z ∧ ((p.zone z).state = .reserved ∨ (p.zone z).state = .moving ∨ (p.zone z).state = .releasing)
    let count := p.cnt.nodes[r.node]
    let alerts := count.edgeLoss = 0xFFFE ∧ count.alerted = false
    let health := { count with edgeLoss := risen count.edgeLoss, alerted := if alerts then true else count.alerted }
    let counted := { p with cnt := { p.cnt with nodes := p.cnt.nodes.set r.node health } }
    let alerted := fun (q : Part) =>
      if alerts then
        { q with mgmt :=
          { q.mgmt.queueEvent p.ring.ringTime none none (.healthEdgeLoss r.node) with healthAlert := true } }
      else q
    let bare := r.edges = [] ∧ s.part.edgeQuiet = true ∧ s.part.NoDeviceOn r.node ∧ s.part.NoSwitchOn r.node ∧
      s.part.NoEstopOn r.node ∧ s.part.NoReadyOn r.node
    (∃ q : Part, exec (.reportFrame f) s = .next { s with part := q } ∧
      q.cnt.nodes[r.node].edgeLoss = risen count.edgeLoss ∧ q.cls.lastCounter[r.node] = some r.counter ∧
      ∀ z, touched z → (p.zone z).state = .moving ∨ (p.zone z).state = .releasing →
        q.HeldAll .tracking ∧ (q.zone z).state = .fault ∧ (q.zone z).reason = some .edgeLoss ∧
        (q.zone z).epoch = (p.zone z).epoch + 1) ∧
    (∀ z x, bare → concerned z → (∀ w, concerned w → w = z) → (p.zone z).occupant = some x →
      ∃ q : Part, exec (.reportFrame f) s = .next { s with part := (alerted q).joinedUp f } ∧
        counted.FaultedTo q z x .edgeLoss p.ring.ringTime ∧ (q.train x).state = (p.train x).state) ∧
    (bare → (∀ w, ¬concerned w) → exec (.reportFrame f) s = .next { s with part := (alerted counted).joinedUp f })

/-- A stray edge counts once against its node, and a feedback match after more than half the limit once against its
device (R29, R100, R181 to R183). A count that reaches its threshold with the flag of the item clear sets the flag and
HEALTH_ALERT and queues HEALTH_THRESHOLD; a flag already set, a threshold of 0 or a count at 65,535 alerts nothing.
The whole state is stated for a node with no other input. Rests on assumption log 11 and 12. -/
def Obligations.HealthCountsRiseAndAlertOnce : Prop :=
  (∀ (s : State) (f : Frame) (r : Report) (g : Edge) (z : ZoneId) (rec : ZoneRec) (role : Role),
      s.part.TakesEdge f r g z rec role → s.part.edgeQuiet = true → s.part.NoDeviceOn r.node →
      s.part.NoSwitchOn r.node → s.part.NoEstopOn r.node → s.part.NoReadyOn r.node →
      let p := s.part.reportRead r
      let d := p.zone z
      let h := p.cnt.nodes[r.node]
      let alerts := h.stray = 0xFFFE ∧ h.alerted = false
      let health := { h with stray := risen h.stray, alerted := if alerts then true else h.alerted }
      let counted := { p with cnt := { p.cnt with nodes := p.cnt.nodes.set r.node health } }
      (role = .trapB ∧ g.rising = true ∧ d.state ≠ .unarmed ∧ ¬(d.state = .moving ∧ d.trap = .pending)) ∨
        (role = .stop ∧ g.rising = true ∧ (d.state = .held ∨ d.state = .releasing ∨ d.state = .outOfService)) ∨
        (role = .clear ∧ g.rising = false ∧ d.state ≠ .unarmed ∧ d.state ≠ .releasing) →
      exec (.reportFrame f) s =
        .next { s with part :=
          (if alerts then
              { counted with mgmt :=
                { p.mgmt.queueEvent p.ring.ringTime none none (.healthStray r.node) with healthAlert := true } }
            else counted).joinedUp f }) ∧
  (∀ (s : State) (f : Frame) (r : Report) (z : ZoneId) (rec : ZoneRec) (v : HoldValue), s.part.TakesReadings f r →
      s.part.OnlyDevice z rec → rec.holdNode = r.node → s.part.NoSwitchOn r.node → s.part.NoEstopOn r.node →
      s.part.NoReadyOn r.node →
      let p := s.part.reportRead r
      let d := p.device z
      let h := p.cnt.devices[z]
      let threshold := p.store.params.slowThreshold.toNat
      let slow := ∃ t, d.changeTime = some t ∧ rec.fbLimit.toNat * 5 < elapsed t p.ring.ringTime
      let settled := { p with devices := p.devices.set z { d with sup := .settled, timer := none } }
      let alerts := h.slow ≠ 0xFFFF ∧ 0 < threshold ∧ threshold ≤ (risen h.slow).toNat ∧ h.alerted = false
      let counted := fun (alerted : Bool) =>
        let health := { h with slow := risen h.slow, alerted := alerted }
        { settled with cnt := { p.cnt with devices := p.cnt.devices.set z health } }
      d.sup = .awaiting → d.forwarded = some v →
      v.matched (r.levels.getLsbD rec.openFb.val) (r.levels.getLsbD rec.closedFb.val) = true →
      (¬slow → exec (.reportFrame f) s = .next { s with part := settled.joinedUp f }) ∧
      (slow → ¬alerts → exec (.reportFrame f) s = .next { s with part := (counted h.alerted).joinedUp f }) ∧
      (slow → alerts →
        exec (.reportFrame f) s =
          .next { s with part :=
            ({ counted true with mgmt :=
              { p.mgmt.queueEvent p.ring.ringTime (some z) none (.healthSlow (risen h.slow)) with
                healthAlert := true } } : Part).joinedUp f }))

/-! ## Reports: readings -/

/-- After every report of its hold node a device stands as the table of R100 and the latch test of R102 say, by the
levels of the report and its forwarded value, in every mode; the devices of the other nodes, and the permits apart,
stand as they were. -/
def Obligations.DevicesAreSupervisedAtReports : Prop :=
  ∀ (s : State) (f : Frame) (r : Report), s.part.TakesReport f r →
    let p := s.part
    ∃ q : Part, exec (.reportFrame f) s = .next { s with part := q } ∧
      (∀ (z : ZoneId) (rec : ZoneRec), p.store.zones[z] = some rec → rec.holdNode = r.node →
        { q.device z with permit := (p.device z).permit } =
          (p.device z).reported (r.levels.getLsbD rec.openFb.val) (r.levels.getLsbD rec.closedFb.val) p.ring.ringTime
            rec.feedbackLimit) ∧
      (∀ z : ZoneId, (∀ rec : ZoneRec, p.store.zones[z] = some rec → rec.holdNode ≠ r.node) →
        { q.device z with permit := (p.device z).permit } = p.device z)

/-- The lock of a commanded switch at a report of its node (R86). A report that shows it good clears the lock-loss mark,
also while a claim waits. On a switch that is held, with no claim waiting and the mark clear, a report that does not
show it good sets the mark, queues SWITCH_FAULT with LOCK_LOST or BOTH_LOCKS, and holds the ride with cause SWITCH,
which releases the claims of the SET routes: the mark stands while the switch is still held, with its position and its
in-service flag; on a switch that nobody holds, or whose mark is set, it changes nothing. The whole state is stated for
a report without edges from a node that has no other input. Rests on assumption log 11. -/
def Obligations.LostLocksHoldTheRide : Prop :=
  ∀ (s : State) (f : Frame) (r : Report) (i : SwitchId) (rec : SwitchRec) (pos : Branch), s.part.TakesReport f r →
    s.part.switchOf r.node = some i → s.part.store.switches[i] = some rec → (s.part.switch i).commanded = some pos →
    let p := s.part.reportRead r
    let marked := fun (v : Bool) =>
      { p with rs := { p.rs with switches := p.rs.switches.set i { p.switch i with lockLost := v } } }
    let locks := p.locksRead rec pos
    let reason : SwitchFailure := if locks = (true, true) then .bothLocks else .lockLost
    let recorded := p.mgmt.queueEvent p.ring.ringTime none none (.switchFault reason rec.node)
    (locks = (true, false) →
      ∃ q : Part, exec (.reportFrame f) s = .next { s with part := q } ∧ (q.switch i).lockLost = false) ∧
    (s.part.TakesReadings f r → s.part.NoDeviceOn r.node → s.part.NoEstopOn r.node → s.part.NoReadyOn r.node →
      s.part.waitsOn r.node = false →
      (locks = (true, false) → exec (.reportFrame f) s = .next { s with part := (marked false).joinedUp f }) ∧
      (locks ≠ (true, false) → (p.switch i).holders = 0 ∨ (p.switch i).lockLost = true →
        exec (.reportFrame f) s = .next { s with part := p.joinedUp f }) ∧
      (locks ≠ (true, false) → (p.switch i).holders ≠ 0 → (p.switch i).lockLost = false → p.mc.mode ≠ .config →
        ∃ q : Part, exec (.reportFrame f) s = .next { s with part := q.joinedUp f } ∧
          Part.RaisedTo { marked true with mgmt := recorded } q .switch ∧
          ((q.switch i).holders ≠ 0 → (q.switch i).lockLost = true) ∧
          (q.switch i).inService = (p.switch i).inService ∧ (q.switch i).commanded = some pos))

/-- The claim that waits on a switch, at a report of its node without edges (R73 to R79). With the lock good it
completes, and with the rest of the route, whose claims complete at once, the route is SET; where one of them is
claimable no longer the setting is unwound with ROUTE_FAILED CLAIM_LOST and its request stays in its place, stated whole
where it is not ready again at once (R73, R74); withdrawn by then it is unwound with ROUTE_FAILED WITHDRAWN; with both
locks active the switch is out of service, SWITCH_FAULT and ROUTE_FAILED SWITCH_LOCKS are queued and the request is
gone; otherwise it waits on. An unwinding releases every claim of the stack (R77): the successor is FREE again with its
epoch risen, its train has no reserved zone, and every holder and flank count is lower by the claims on it. Stated for a
node with no other input, where no other request waits. Rests on assumption log 11, 12 and 23. -/
def Obligations.TheWaitingClaimIsResumed : Prop :=
  ∀ (s : State) (f : Frame) (r : Report) (sg : Setting) (pos : Branch) (below : List Claim) (i : SwitchId)
    (srec : SwitchRec) (rec : ZoneRec) (route : RouteRec), s.part.TakesReadings f r → s.part.NoDeviceOn r.node →
    s.part.NoEstopOn r.node → s.part.NoReadyOn r.node → s.part.rs.setting = some sg → s.part.rs.timer.isSome = true →
    s.part.rs.stack = .switch r.node pos :: below → s.part.switchOf r.node = some i →
    s.part.store.switches[i] = some srec → (s.part.switch i).commanded = some pos →
    s.part.store.zones[sg.zone] = some rec → s.part.routeRec sg.zone sg.branch = some route →
    (∀ rq ∈ s.part.rs.requests, rq.zone = sg.zone) →
    let read := s.part.reportRead r
    let locked := { read.switch i with lockLost := false }
    let p := { read with rs := { read.rs with switches := read.rs.switches.set i locked } }
    let withdrawn := (sg.origin = .level ∧ (p.device sg.zone).asSent = some .hold) ∨
      (sg.origin = .autoEntry ∧ p.mc.mode = .runManual)
    let undone := fun (before q : Part) =>
      before.ClaimsFreed q s.part.stacked ∧ q.rs.setting = none ∧ q.rs.stack = [] ∧ q.rs.timer = none ∧
        q.rs.requests = [] ∧ q.rs.routes = p.rs.routes ∧ q.devices = p.devices ∧ q.mc = p.mc ∧ q.ring = p.ring ∧
        p.TrackKept q
    let off := read.rs.switches.set i { read.switch i with inService := false }
    let failed := fun (m : Mgmt) (reason : RouteFailure) =>
      m.queueEvent p.ring.ringTime (some sg.zone) (some sg.train) (.routeFailed reason)
    (∀ (sz : ZoneId) (held more : List Claim), p.locksRead srec pos = (true, false) → ¬withdrawn →
      route.claims.drop (sg.index + 1) = more → p.ClaimsMet more →
      (Claim.switch r.node pos :: below).reverse = .reserve sz :: held →
      (p.openFb rec = false ∨ (p.zone sg.zone).state ≠ .held) →
      ∃ q : Part, exec (.reportFrame f) s = .next { s with part := q.joinedUp f } ∧
        p.RouteMade q sg.zone rec sg.train sg.branch sz held more) ∧
    (∀ (more rest : List Claim) (c : Claim), p.locksRead srec pos = (true, false) →
      route.claims.drop (sg.index + 1) = more ++ c :: rest → p.ClaimsMet more → p.claimable c = false →
      ∃ taken lost q : Part, p.ClaimsTaken taken more ∧
        ({ p with trk := taken.trk, rs := { p.rs with switches := taken.rs.switches } } : Part).SettingUndone lost
          (s.part.stacked ++ more.map (fun c => (sg.train, c))) p.rs.requests (failed p.mgmt .claimLost) ∧
        exec (.reportFrame f) s = .next { s with part := q.joinedUp f } ∧ lost.mgmt.events <+: q.mgmt.events ∧
        ((∀ rq ∈ lost.rs.requests, lost.ready rq = none) → q = lost)) ∧
    (p.locksRead srec pos = (true, false) → withdrawn → route.claims.drop (sg.index + 1) = [] →
      ∃ q : Part, exec (.reportFrame f) s = .next { s with part := q.joinedUp f } ∧ undone p q ∧
        q.mgmt = failed p.mgmt .withdrawn) ∧
    (p.locksRead srec pos = (true, true) →
      ∃ q : Part, exec (.reportFrame f) s = .next { s with part := q.joinedUp f } ∧
        undone { read with rs := { read.rs with switches := off } } q ∧ (q.switch i).inService = false ∧
        q.mgmt = failed (p.mgmt.queueEvent p.ring.ringTime (some sg.zone) (some sg.train)
          (.switchFault .bothLocks r.node)) .switchLocks) ∧
    ((p.locksRead srec pos).1 = false → exec (.reportFrame f) s = .next { s with part := read.joinedUp f })

/-- The e-stop inputs at a report of their node (R133). After every report the memory of each loaded entry on the node
is its level, and the other memories stand; outside CONFIG an entry that goes active, its memory inactive or unknown
before, holds the ride with cause ESTOP, the HOLD_ALL record naming the lowest such entry first. An entry that stays
active or reads inactive, and any in CONFIG, changes the memory alone. Rests on assumption log 11. -/
def Obligations.EstopInputsHoldTheRide : Prop :=
  ∀ (s : State) (f : Frame) (r : Report), s.part.TakesReport f r →
    let p := s.part.reportRead r
    ∃ q : Part, exec (.reportFrame f) s = .next { s with part := q } ∧
      (∀ (i : EntryId) (ref : SensorRef), p.store.estops[i] = some ref → ref.node = r.node →
        q.mc.estopMem[i] = some (r.levels.getLsbD ref.ch.val)) ∧
      (∀ i : EntryId, (∀ ref, p.store.estops[i] = some ref → ref.node ≠ r.node) → q.mc.estopMem[i] = p.mc.estopMem[i]) ∧
      (p.mc.mode ≠ .config → (∃ i, p.EstopRises r i) → q.HeldAll .estop) ∧
      (∀ i, p.mc.mode ≠ .config → p.EstopRises r i → (∀ j, j < i → ¬p.EstopRises r j) → s.part.TakesReadings f r →
        s.part.NoDeviceOn r.node → s.part.NoSwitchOn r.node →
        (p.mgmt.queueEvent p.ring.ringTime none none (.holdAll .estop (!p.mc.latch) (some i))).events <+:
          q.mgmt.events) ∧
      (p.mc.mode = .config ∨ (∀ i, ¬p.EstopRises r i) → s.part.TakesReadings f r → s.part.NoDeviceOn r.node →
        s.part.NoSwitchOn r.node → s.part.NoReadyOn r.node →
        q = ({ p with mc := { p.mc with estopMem := q.mc.estopMem } } : Part).joinedUp f)

/-- A report that shows a ready input of a STATION or LAUNCH zone inactive (R114, R115). A SET route out of the zone,
HELD, is cancelled: the route is gone with its claims (R82), its successor FREE, its permit HOLD; a setting for the zone
that waits for a switch is unwound with its claims (R77), its request staying with its mark set and no refusal expiry,
also where it was reported before (assumption log 22). Each queues DISPATCH_REFUSED with READY_LOST and the first
inactive position. With neither the report changes nothing more. Stated for a report without edges from a node that has
ready inputs of that zone alone. Rests on assumption log 11, 12 and 17. -/
def Obligations.LostReadinessCancelsOrAborts : Prop :=
  ∀ (s : State) (f : Frame) (r : Report) (z : ZoneId) (rec : ZoneRec) (i : Nat), s.part.TakesReadings f r →
    s.part.NoDeviceOn r.node → s.part.NoSwitchOn r.node → s.part.NoEstopOn r.node → s.part.store.zones[z] = some rec →
    rec.kind = .station ∨ rec.kind = .launch →
    (∀ (w : ZoneId) (other : ZoneRec), s.part.store.zones[w] = some other → w ≠ z →
      ∀ ref ∈ other.ready, ref.node ≠ r.node) →
    let p := s.part.reportRead r
    let lost := ∃ ref ∈ rec.ready, ref.node = r.node ∧ r.levels.getLsbD ref.ch.val = false
    let refused := fun (x : TrainId) =>
      p.mgmt.queueEvent p.ring.ringTime (some z) (some x) (.dispatchRefused (.readyLost i))
    p.firstInactive rec = some i →
    (∀ rt, lost → p.rs.routes.filter (fun a => a.zone == z && a.phase == .set) = [rt] → (p.zone z).state = .held →
      p.rs.requests = [] →
      ∃ q : Part, exec (.reportFrame f) s = .next { s with part := q.joinedUp f } ∧
        q.rs.routes = p.rs.routes.filter (fun a => !(a.zone == z && a.phase == .set)) ∧ q.rs.requests = [] ∧
        q.devices = p.devices.set z { p.device z with permit := .hold } ∧ p.TrackKept q ∧ p.ClaimsFreed q rt.claims ∧
        ((p.zone rt.succ).state = .reserved → (p.zone rt.succ).occupant = some rt.train →
          (q.zone rt.succ).state = .free ∧ (q.zone rt.succ).occupant = none) ∧
        q.mgmt = refused rt.train ∧ q.mc = p.mc ∧ q.ring = p.ring ∧ q.dsp = p.dsp) ∧
    (∀ sg, lost → (∀ a ∈ p.rs.routes, ¬(a.zone = z ∧ a.phase = .set)) → p.rs.setting = some sg → sg.zone = z →
      p.rs.timer.isSome = true → (∀ rq ∈ p.rs.requests, rq.zone = z) →
      ∃ q : Part, exec (.reportFrame f) s = .next { s with part := q.joinedUp f } ∧
        q.rs.setting = none ∧ q.rs.stack = [] ∧ q.rs.timer = none ∧ q.rs.routes = p.rs.routes ∧
        q.rs.requests = p.rs.requests.map (fun rq => { rq with reported := true, refusal := none }) ∧
        q.devices = p.devices ∧ p.TrackKept q ∧ p.ClaimsFreed q p.stacked ∧ q.mgmt = refused sg.train ∧ q.mc = p.mc ∧
        q.ring = p.ring ∧ q.dsp = p.dsp) ∧
    (p.rs.requests = [] → p.rs.setting = none →
      (¬lost ∨ (p.zone z).state ≠ .held ∨ ∀ a ∈ p.rs.routes, ¬(a.zone = z ∧ a.phase = .set)) →
      exec (.reportFrame f) s = .next { s with part := p.joinedUp f })

/-! ## Requests: taking, queries and flags -/

/-- The queries answer with the items that their rules list, each written out here, and change nothing else: IDENTIFY
(R168), STATUS (R169), TABLE_READ (R172), QUERY_ZONE (R174), QUERY_TRAIN (R175), COUNTERS_READ (R180) and HEALTH_READ
(R184). An unloaded zone reports its reset values (log 15). The layouts that the manual leaves open are those of
assumption log 9. -/
def Obligations.QueriesReportAndChangeNothingElse : Prop :=
  ∀ (s : State) (tag : Byte) (args : List Byte), s.part.takesRequest = true →
    let p := s.part.frameTaken .cIn
    let time := fun (v : Option (BitVec 32)) =>
      match v with
      | none => [0, 0, 0, 0, 0]
      | some v => 1 :: be32 v
    let zone := fun (v : Option ZoneId) =>
      match v with
      | none => (0xFF : Byte)
      | some z => finByte z
    let inForce := fun (v : Reporting) =>
      [BitVec.ofNat 8 v.batch.toNat,
        flagByte v.mask.tracking ||| flagByte v.mask.dispatch <<< 1 ||| 4 ||| flagByte v.mask.health <<< 3]
    let firstCause : Byte :=
      match p.mc.first with
      | none => 0xFF
      | some c => BitVec.ofNat 8 c.number
    let active := fun (i : EntryId) => p.store.estops[i].isSome = true ∧ p.mc.estopMem[i] = some true
    let latched := fun (z : ZoneId) => (p.device z).latch = true
    exec (.identify tag args) s =
      .next { s with part := (p.responded tag 0x01 args .success
        ([0x0B, 0x12, 0xCA, Config.revision, p.lines.resetCause.code, p.mc.mode.code, flagByte p.ring.synced] ++
          be32 p.ring.ringTime ++
          (if p.mc.mode = .config then [0, 0, 0]
            else match p.mgmt.signature with
              | none => [0, 0, 0]
              | some v => 1 :: be16 v))) } ∧
    (∃ (flags conditions entry device : Byte) (causes : BitVec 16),
      exec (.status tag args) s =
        .next { s with part := (p.responded tag 0x02 args .success
          ([flags, flagByte (decide (p.mgmt.events ≠ [])), p.mc.mode.code, firstCause] ++ be16 causes ++
            [BitVec.ofNat 8 p.mc.budget.val, conditions, entry, device, flagByte p.mgmt.precedence.isNone] ++
            inForce p.mgmt.reporting ++
            (match p.mgmt.setting with
              | none => [0, 0, 0]
              | some v => 1 :: inForce v))) } ∧
      (flags.getLsbD 0 = p.mgmt.frameError ∧ flags.getLsbD 1 = p.mgmt.loadTainted ∧
        flags.getLsbD 2 = p.mgmt.evqOverflow ∧ flags.getLsbD 3 = p.mgmt.healthAlert ∧
        flags.getLsbD 4 = decide (p.mc.budget = 0) ∧ flags.getLsbD 5 = p.lines.supplyWarn ∧
        flags.getLsbD 6 = p.mc.latch ∧ flags.getLsbD 7 = false) ∧
      ((∀ c : Cause, causes.getLsbD c.number = decide (c ∈ p.mc.causes)) ∧ causes.toNat < 2 ^ 11) ∧
      ((conditions.getLsbD 0 = true ↔ ∃ i, active i) ∧ conditions.getLsbD 1 = p.ring.silent ∧
        conditions.getLsbD 2 = p.ring.linkDown ∧ conditions.getLsbD 3 = p.lines.supplyWarn ∧
        (conditions.getLsbD 4 = true ↔ ∃ z, latched z) ∧ conditions.getLsbD 5 = p.lines.maintKey ∧
        conditions.toNat < 2 ^ 6) ∧
      ((∀ i, active i → (∀ j, j < i → ¬active j) → entry = finByte i) ∧ ((∀ i, ¬active i) → entry = 0xFF)) ∧
      (∀ z, latched z → (∀ w, w < z → ¬latched w) → device = finByte z) ∧ ((∀ z, ¬latched z) → device = 0xFF)) ∧
    (∀ (t i : Byte) (slot : Slot), slotOf t i = some slot →
      exec (.tableRead tag (t :: i :: args)) s =
        .next { s with part := (p.responded tag 0x09 (t :: i :: args) .success
          ([t, i] ++
            (match p.store.body slot with
              | none => 0 :: List.replicate slot.bodyLength 0
              | some body => 1 :: body) ++
            (match slot with
              | .switch w =>
                if p.store.switches[w].isSome then
                  [(match (p.switch w).commanded with
                    | none => 2
                    | some pos => pos.code),
                    BitVec.ofNat 8 (p.switch w).holders,
                    flagByte (p.switch w).inService ||| flagByte (p.switch w).lockLost <<< 1]
                else [0, 0, 0]
              | _ => []))) }) ∧
    (∀ z : ZoneId,
      exec (.queryZone tag (finByte z :: args)) s =
        .next { s with part := (p.responded tag 0x0B (finByte z :: args) .success
          (match p.store.zones[z] with
            | none =>
              [0, 0, 0] ++ [ZoneState.unarmed.code, 0] ++ be16 (p.zone z).epoch ++ List.replicate 5 0 ++
                [TrapState.none.code, 0] ++ [0xFF, 0xFF] ++ List.replicate 10 0 ++ [0, Branch.b.code] ++
                List.replicate 8 0 ++ [Permit.hold.code, 0xFF, SupState.unsupervised.code, 0]
            | some rec =>
              let d := p.zone z
              [1, rec.kind.code, flagByte rec.inService] ++ [d.state.code, trainByte d.occupant] ++ be16 d.epoch ++
                time d.entryTime ++ [d.trap.code, flagByte d.pauseMark] ++ be16 (d.speed.getD 0xFFFF) ++
                time d.deadline ++ time d.remainder ++
                [(match d.reason with
                  | none => 0
                  | some reason => reason.code),
                  d.lastBranch.code, BitVec.ofNat 8 d.flank] ++
                (match p.rs.requests.find? (fun r => r.zone == z) with
                  | none => [0, 0]
                  | some r => [1, r.origin.code]) ++
                [flagByte (p.rs.setting.any (fun g => g.zone == z))] ++
                (match p.rs.routes.find? (fun r => r.zone == z) with
                  | none => [0, 0, 0, 0]
                  | some r => [1, r.phase.code, r.branch.code, finByte r.succ]) ++
                [(p.device z).permit.code,
                  (match (p.device z).forwarded with
                    | none => 0xFF
                    | some .hold => 0
                    | some .release => 1),
                  (p.device z).sup.code, flagByte (p.device z).latch])) }) ∧
    (∀ x : TrainId,
      let r := p.train x
      exec (.queryTrain tag (trainByte (some x) :: args)) s =
        .next { s with part := (p.responded tag 0x0C (trainByte (some x) :: args) .success
          ([r.state.code, zone r.head, zone r.tail, zone r.reserved] ++ be16 (r.lastSpeed.getD 0xFFFF) ++
            [flagByte r.divert] ++ be32 r.laps ++ [flagByte r.serviceDue] ++
            (p.rs.routes.filter (fun a => a.train == x)).flatMap (fun a =>
              [finByte a.zone, finByte a.succ, a.branch.code, a.phase.code]))) }) ∧
    (∀ (b : Byte) (port : Port), portOf b = some port →
      exec (.countersRead tag (b :: args)) s =
        .next { s with part := (p.responded tag 0x11 (b :: args) .success
          (match port with
            | .cIn =>
              be32 p.cnt.cIn.received ++ be32 p.cnt.cIn.parity ++ be32 p.cnt.cIn.lengthRange ++
                be32 p.cnt.cIn.lengthMismatch ++ be32 p.cnt.cIn.crc ++ be32 p.cnt.cIn.fragment ++
                be32 p.cnt.cIn.queueFull ++ be32 p.cnt.cIn.responseFull
            | .fIn =>
              be32 p.cnt.fIn.parity ++ be32 p.cnt.fIn.lengthRange ++ be32 p.cnt.fIn.lengthMismatch ++
                be32 p.cnt.fIn.crc ++ be32 p.cnt.fIn.fragment ++ be32 p.cnt.fIn.received ++ be32 p.cnt.fIn.queueFull
            | .fOut =>
              be32 p.cnt.fOut.forwarded ++ be32 p.cnt.fOut.unlisted ++ be32 p.cnt.fOut.configDrop ++
                be32 p.cnt.fOut.overridden
            | .cOut => be32 p.cnt.cOutForwarded)) }) ∧
    (∀ (k i : Byte) (item : HealthItem), healthItemOf k i = .ok item →
      exec (.healthRead tag (k :: i :: args)) s =
        .next { s with part := (p.responded tag 0x13 (k :: i :: args) .success
          (match item with
            | .node n =>
              be16 p.cnt.nodes[n].stray ++ be16 p.cnt.nodes[n].edgeLoss ++ [flagByte p.cnt.nodes[n].alerted] ++
                (match p.cls.lastCounter[n] with
                  | none => [0, 0]
                  | some c => [1, c])
            | .device z =>
              be32 p.cnt.devices[z].operations ++ be16 p.cnt.devices[z].slow ++ be16 p.cnt.devices[z].overrides ++
                [flagByte p.cnt.devices[z].alerted] ++ be16 p.store.params.slowThreshold
            | .train x =>
              be32 (p.train x).laps ++ [flagByte (p.train x).serviceDue, flagByte (p.train x).divert] ++
                be32 p.store.params.lapThreshold)) })

/-- Requests that are not carried out. While a RESET is pending a request is discarded and counts as received only; at
a full response queue it counts as RESPONSE_FULL; a payload without tag and code empties the precedence record; a code
with no definition is answered with UNKNOWN_REQUEST, a payload too short for its code with BAD_VALUE and field 0, and
a zone, train, slot, kind or index of QUERY_ZONE, QUERY_TRAIN, TABLE_READ or HEALTH_READ that names none with
BAD_VALUE and its field (R163, R172, R174, R175, R184, R188). Rests on assumption log 7 and 10. -/
def Obligations.RequestsNotCarriedOutChangeNothing : Prop :=
  ∀ (s : State) (tag code : Byte) (args payload : List Byte), s.part.hears .cIn = true →
    let p := s.part.frameTaken .cIn
    (s.part.mgmt.resetPending = true →
      exec (.responseFull tag code args) s = .next { s with part := p } ∧
      exec (.unknownRequest tag code args) s = .next { s with part := p } ∧
      exec (.reset tag args) s = .next { s with part := p } ∧ exec (.stop tag args) s = .next { s with part := p }) ∧
    (s.part.mgmt.resetPending = false → 8 ≤ s.part.mgmt.responses.length →
      exec (.responseFull tag code args) s =
        .next { s with part :=
          { p with cnt := { p.cnt with cIn := { p.cnt.cIn with responseFull := p.cnt.cIn.responseFull + 1 } } } }) ∧
    (payload.length ≤ 1 →
      exec (.malformedMgmtRequest payload) s =
        .next { s with part := { p with mgmt := { p.mgmt with precedence := none } } }) ∧
    (s.part.takesRequest = true → code = 0 ∨ 0x15 < code.toNat →
      exec (.unknownRequest tag code args) s =
        .next { s with part := p.responded tag code args .unknownRequest [] }) ∧
    (s.part.takesRequest = true →
      exec (.clearFlags tag []) s = .next { s with part := p.responded tag 0x03 [] .badValue [0] } ∧
      exec (.setModeRun tag []) s = .next { s with part := p.responded tag 0x04 [] .badValue [0] } ∧
      exec (.restore tag []) s = .next { s with part := p.responded tag 0x06 [] .badValue [0] } ∧
      exec (.queryZone tag []) s = .next { s with part := p.responded tag 0x0B [] .badValue [0] } ∧
      exec (.queryTrain tag []) s = .next { s with part := p.responded tag 0x0C [] .badValue [0] } ∧
      exec (.countersRead tag []) s = .next { s with part := p.responded tag 0x11 [] .badValue [0] } ∧
      (args.length < 2 →
        exec (.tableRead tag args) s = .next { s with part := p.responded tag 0x09 args .badValue [0] } ∧
        exec (.setDivert tag args) s = .next { s with part := p.responded tag 0x0F args .badValue [0] } ∧
        exec (.eventCtrl tag args) s = .next { s with part := p.responded tag 0x10 args .badValue [0] } ∧
        exec (.healthRead tag args) s = .next { s with part := p.responded tag 0x13 args .badValue [0] } ∧
        exec (.healthReset tag args) s = .next { s with part := p.responded tag 0x14 args .badValue [0] }) ∧
      (args.length < 3 →
        exec (.tableWrite tag args) s = .next { s with part := p.responded tag 0x08 args .badValue [0] } ∧
        exec (.overrideRelease tag args) s = .next { s with part := p.responded tag 0x0D args .badValue [0] })) ∧
    (s.part.takesRequest = true → ∀ k i : Byte,
      (32 ≤ k.toNat →
        exec (.queryZone tag (k :: args)) s =
          .next { s with part := p.responded tag 0x0B (k :: args) .badValue [1] }) ∧
      (k = 0 ∨ 8 < k.toNat →
        exec (.queryTrain tag (k :: args)) s =
          .next { s with part := p.responded tag 0x0C (k :: args) .badValue [1] }) ∧
      (slotOf k i = none →
        exec (.tableRead tag (k :: i :: args)) s =
          .next { s with part := p.responded tag 0x09 (k :: i :: args) .badValue [0] }) ∧
      (2 < k.toNat →
        exec (.healthRead tag (k :: i :: args)) s =
          .next { s with part := p.responded tag 0x13 (k :: i :: args) .badValue [1] }) ∧
      ((k = 0 ∧ nodeOf i = none) ∨ (k = 1 ∧ 32 ≤ i.toNat) ∨ (k = 2 ∧ (i = 0 ∨ 8 < i.toNat)) →
        exec (.healthRead tag (k :: i :: args)) s =
          .next { s with part := p.responded tag 0x13 (k :: i :: args) .badValue [2] }))

/-- CLEAR_FLAGS clears FRAME_ERROR and EVQ_OVERFLOW where they are named, clears a named HEALTH_ALERT unless its
condition is present, leaves every other flag, and answers with the seven flags in the order of their codes (R171). -/
def Obligations.ClearFlagsClearsTheStickyFlags : Prop :=
  ∀ (s : State) (tag b : Byte) (rest : List Byte), s.part.takesRequest = true →
    let p := s.part.frameTaken .cIn
    let alert : Prop := (∃ n : NodeId, p.cnt.nodes[n].alerted = true) ∨
      (∃ z : ZoneId, p.cnt.devices[z].alerted = true) ∨ ∃ x : TrainId, (p.train x).serviceDue = true
    ∃ (q : Part) (flags : Byte),
      exec (.clearFlags tag (b :: rest)) s =
        .next { s with part := q.responded tag 0x03 (b :: rest) .success [flags] } ∧
      q = { p with mgmt :=
        { p.mgmt with frameError := p.mgmt.frameError && !b.getLsbD 0
                      evqOverflow := p.mgmt.evqOverflow && !b.getLsbD 2
                      healthAlert := q.mgmt.healthAlert } } ∧
      (b.getLsbD 3 = true → (q.mgmt.healthAlert = true ↔ alert)) ∧
      (b.getLsbD 3 = false → q.mgmt.healthAlert = p.mgmt.healthAlert) ∧
      flags.getLsbD 0 = q.mgmt.frameError ∧ flags.getLsbD 1 = q.mgmt.loadTainted ∧
      flags.getLsbD 2 = q.mgmt.evqOverflow ∧ flags.getLsbD 3 = q.mgmt.healthAlert ∧
      flags.getLsbD 4 = decide (q.mc.budget = 0) ∧ flags.getLsbD 5 = q.lines.supplyWarn ∧
      flags.getLsbD 6 = q.mc.latch ∧ flags.getLsbD 7 = false

/-! ## Requests: modes -/

/-- SET_MODE between the two running modes keeps HEALTHY, the latch and the ring as they are, and on leaving RUN_AUTO
drops the AUTO_ENTRY requests that are not being set; the current mode as target succeeds with no change, a running
target from any other mode is refused with BAD_MODE, and a mode byte that names no target with BAD_VALUE.
SET_MODE(MAINT) from STOPPED, where no request is queued: without the key NO_KEY; with a condition present
CONDITION_PRESENT with the code and byte of the first of an active e-stop, a silent controller, a field link down, the
supply warning and a device fault latch (check 4 of R137, the key left out); otherwise the latch is clear and the mode
MAINT with HEALTHY down; from CONFIG and the running modes BAD_MODE (R126, R127). Rests on assumption log 10 and 12. -/
def Obligations.SetModeChangesTheRunningModeOrEntersMaint : Prop :=
  (∀ (s : State) (tag b : Byte) (rest : List Byte), s.part.takesRequest = true →
      let p := s.part.frameTaken .cIn
      let args := b :: rest
      (∀ m : Mode, (p.mc.mode = .runAuto ∧ m = .runManual) ∨ (p.mc.mode = .runManual ∧ m = .runAuto) → b = m.code →
        ∃ q : Part, exec (.setModeRun tag args) s = .next { s with part := q.responded tag 0x04 args .success [] } ∧
          q.mc = { p.mc with mode := m, healthy := true } ∧ q.ring = p.ring ∧ q.store = p.store ∧ q.lines = p.lines ∧
          q.cls = p.cls ∧
          ∀ r ∈ q.rs.requests, r ∈ p.rs.requests ∧ (m = .runManual → r.origin = .autoEntry → p.isSetting r.zone = true)) ∧
      (p.mc.mode ≠ .stopped → b = p.mc.mode.code →
        exec (.setModeRun tag args) s = .next { s with part := p.responded tag 0x04 args .success [] } ∧
        exec (.setModeMaint tag args) s = .next { s with part := p.responded tag 0x04 args .success [] } ∧
        exec (.setModeConfig tag args) s = .next { s with part := p.responded tag 0x04 args .success [] }) ∧
      (p.mc.mode.running = false → b = 2 ∨ b = 3 →
        exec (.setModeRun tag args) s = .next { s with part := p.responded tag 0x04 args .badMode [p.mc.mode.code] }) ∧
      (b = 1 ∨ 4 < b.toNat →
        exec (.setModeRun tag args) s = .next { s with part := p.responded tag 0x04 args .badValue [1] })) ∧
  (∀ (s : State) (tag : Byte) (rest : List Byte), s.part.takesRequest = true →
      let p := s.part.frameTaken .cIn
      let args := 4 :: rest
      (p.mc.mode = .stopped → p.lines.maintKey = false →
        exec (.setModeMaint tag args) s = .next { s with part := p.responded tag 0x04 args .noKey [] }) ∧
      (∀ (code : Nat) (b : Byte), p.mc.mode = .stopped → p.lines.maintKey = true → p.FirstReports 5 code b →
        exec (.setModeMaint tag args) s =
          .next { s with part := p.responded tag 0x04 args .conditionPresent [BitVec.ofNat 8 code, b] }) ∧
      (p.mc.mode = .stopped → p.rs.requests = [] → p.lines.maintKey = true → (∀ code b, ¬p.FirstReports 5 code b) →
        exec (.setModeMaint tag args) s =
          .next { s with part := (p.latchCleared.modeMade .maint).responded tag 0x04 args .success [] }) ∧
      (p.mc.mode ≠ .stopped → p.mc.mode ≠ .maint →
        exec (.setModeMaint tag args) s = .next { s with part := p.responded tag 0x04 args .badMode [p.mc.mode.code] }))

/-- SET_MODE(CONFIG) from STOPPED. With every train ABSENT or PRESENT in a HELD head zone and no zone MOVING or
RELEASING, every zone, train, switch, device and the Dispatch Unit take their CONFIG values, the Route Setter is empty,
the signature absent and the latch clear; the store, counters, lap counts, divert marks and last branches stay. The
lowest zone that fails the settle test, MOVING, RELEASING or the head zone of a train that is LOST or PRESENT and not
HELD there, refuses it with NOT_SETTLED, and any mode but STOPPED and CONFIG with BAD_MODE (R127, R128). That the zone
named for a train is its head zone is assumption log 13; the record times rest on log 12. -/
def Obligations.SetModeConfigDisarmsASettledRide : Prop :=
  ∀ (s : State) (tag : Byte) (rest : List Byte), s.part.takesRequest = true →
    let p := s.part.frameTaken .cIn
    let args := 0 :: rest
    (p.mc.mode = .stopped →
      (∀ x, (p.train x).state = .absent ∨
        ((p.train x).state = .present ∧ ∃ z, (p.train x).head = some z ∧ (p.zone z).state = .held)) →
      (∀ z, (p.zone z).state ≠ .moving ∧ (p.zone z).state ≠ .releasing) →
      ∃ q : Part, exec (.setModeConfig tag args) s = .next { s with part := q.responded tag 0x04 args .success [] } ∧
        (∀ z, q.zone z =
          { ZoneDyn.reset with
            lastBranch := (p.zone z).lastBranch
            epoch := if (p.zone z).state = .unarmed ∧ (p.zone z).occupant = none then (p.zone z).epoch
              else (p.zone z).epoch + 1 }) ∧
        (∀ x, q.train x =
          { p.train x with state := .absent, head := none, tail := none, reserved := none, lastSpeed := none }) ∧
        (∀ i, q.switch i =
          { commanded := none, holders := 0, inService := (p.switch i).inService, lockLost := false }) ∧
        q.rs = { setting := none, requests := [], stack := [], routes := [], switches := q.rs.switches, timer := none } ∧
        (∀ z, q.device z = DeviceRec.reset) ∧ q.dsp = Dispatch.reset ∧
        q.mc = { p.latchCleared.mc with mode := .config, healthy := false } ∧ q.ring = p.latchCleared.ring ∧
        q.mgmt = { p.mgmt.queueEvent p.ring.ringTime none none (.modeChanged .stopped .config) with signature := none } ∧
        q.store = p.store ∧ q.cls = p.cls ∧ q.cnt = p.cnt ∧ q.lines = p.lines) ∧
    (∀ z, p.mc.mode = .stopped → Lowest p.Restless z →
      exec (.setModeConfig tag args) s = .next { s with part := p.responded tag 0x04 args .notSettled [finByte z] }) ∧
    (p.mc.mode ≠ .stopped → p.mc.mode ≠ .config →
      exec (.setModeConfig tag args) s = .next { s with part := p.responded tag 0x04 args .badMode [p.mc.mode.code] })

/-- ARM in CONFIG, untainted and synchronized. The first of the twenty checks that fails, each written out in
Safety.lean by what must fail and which record it names (the lowest of its table; check 6 the later use in scan order,
check 5 zones before e-stop entries, check 20 entries before zones), is answered with its code, table and index; with
none, a zone named by a placement entry is HELD by its train, every other loaded zone FREE or OUT_OF_SERVICE, each with
an epoch 1 higher as it leaves UNARMED, the trains are placed or ABSENT with their laps and service-due flags kept,
switches and devices start anew, the signature is that of the store, and the mode is STOPPED with the latch untouched.
Its three earlier refusals change nothing (R12 to R19). Rests on assumption log 12. -/
def Obligations.ArmBuildsTheRideFromTheTables : Prop :=
  ∀ (s : State) (tag : Byte) (args : List Byte), s.part.takesRequest = true →
    let p := s.part.frameTaken .cIn
    (p.mc.mode ≠ .config →
      exec (.arm tag args) s = .next { s with part := p.responded tag 0x05 args .badMode [p.mc.mode.code] }) ∧
    (p.mc.mode = .config → p.mgmt.loadTainted = true →
      exec (.arm tag args) s = .next { s with part := p.responded tag 0x05 args .tainted [] }) ∧
    (p.mc.mode = .config → p.mgmt.loadTainted = false → p.ring.synced = false →
      exec (.arm tag args) s = .next { s with part := p.responded tag 0x05 args .notSynchronized [] }) ∧
    (∀ (code : Nat) (table index : Byte), p.mc.mode = .config → p.mgmt.loadTainted = false → p.ring.synced = true →
      p.CheckFails code table index → (∀ c t i, c < code → ¬p.CheckFails c t i) →
      exec (.arm tag args) s =
        .next { s with part := p.responded tag 0x05 args .validationFailed [BitVec.ofNat 8 code, table, index] }) ∧
    (p.mc.mode = .config → p.mgmt.loadTainted = false → p.ring.synced = true →
      (∀ code table index, ¬p.CheckFails code table index) →
      ∃ q : Part, exec (.arm tag args) s = .next { s with part := q.responded tag 0x05 args .success [] } ∧
        (∀ (i : EntryId) (x : TrainId) (z : ZoneId), p.store.placement[i] = some { train := x, zone := z } →
          q.zone z = { ZoneDyn.reset with state := .held, occupant := some x, epoch := (q.zone z).epoch } ∧
          ((p.zone z).state = .unarmed → (q.zone z).epoch = (p.zone z).epoch + 1) ∧
          q.train x =
            { state := .present, head := some z, tail := none, reserved := none, lastSpeed := none
              divert := (p.train x).serviceDue, laps := (p.train x).laps, serviceDue := (p.train x).serviceDue }) ∧
        (∀ (z : ZoneId) (rec : ZoneRec), p.store.zones[z] = some rec →
          (∀ (i : EntryId) (x : TrainId), p.store.placement[i] ≠ some { train := x, zone := z }) →
          q.zone z =
            { ZoneDyn.reset with
              state := if rec.inService then .free else .outOfService, epoch := (q.zone z).epoch } ∧
          ((p.zone z).state = .unarmed → (q.zone z).epoch = (p.zone z).epoch + 1)) ∧
        (∀ x : TrainId, (∀ (i : EntryId) (z : ZoneId), p.store.placement[i] ≠ some { train := x, zone := z }) →
          q.train x =
            { state := .absent, head := none, tail := none, reserved := none, lastSpeed := none
              divert := (p.train x).serviceDue, laps := (p.train x).laps, serviceDue := (p.train x).serviceDue }) ∧
        (∀ i : SwitchId, q.switch i =
          { commanded := none, holders := 0, lockLost := false
            inService := p.store.switches[i].any SwitchRec.inService }) ∧
        q.rs = { setting := none, requests := [], stack := [], routes := [], switches := q.rs.switches, timer := none } ∧
        (∀ z, q.device z = DeviceRec.reset) ∧ q.dsp = Dispatch.reset ∧
        q.mc = { p.mc with mode := .stopped, healthy := false, estopMem := q.mc.estopMem } ∧
        (∀ (i : EntryId) (r : SensorRef), p.store.estops[i] = some r → q.mc.estopMem[i] = some (p.level r)) ∧
        q.mgmt =
          { p.mgmt.queueEvent p.ring.ringTime none none (.modeChanged .config .stopped) with
            signature := some (crc16 p.store.signatureBytes) } ∧
        q.cls.levels = p.cls.levels ∧ (∀ n : NodeId, q.cls.lastCounter[n] = none) ∧
        q.store = p.store ∧ q.ring = p.ring ∧ q.cnt = p.cnt ∧ q.lines = p.lines)

/-- RESTORE (R137): BAD_VALUE for a target that is neither AUTO nor MANUAL, then the checks in their order,
CONDITION_PRESENT with the code and byte of the first of an active e-stop, a silent controller, a field link down, the
supply warning, a device fault latch and the key, and with nothing found the latch is clear, the mode the running mode
named and HEALTHY asserted (with no request queued, as in every state that Interlocked allows). STOP is refused with
BAD_MODE in CONFIG, and in every other mode succeeds and raises STOP_REQUEST anew, with the latch clear or set (R136).
Rests on assumption log 10 and 12. -/
def Obligations.RestoreRunsAndStopHoldsTheRide : Prop :=
  (∀ (s : State) (tag b : Byte) (rest : List Byte), s.part.takesRequest = true →
      let p := s.part.frameTaken .cIn
      let args := b :: rest
      let noFault := ∀ z, (p.zone z).state ≠ .fault
      let still := ∀ z, (p.zone z).state ≠ .moving ∧ (p.zone z).state ≠ .releasing
      (1 < b.toNat → exec (.restore tag args) s = .next { s with part := p.responded tag 0x06 args .badValue [1] }) ∧
      (b.toNat ≤ 1 → p.mc.mode ≠ .stopped →
        exec (.restore tag args) s = .next { s with part := p.responded tag 0x06 args .badMode [p.mc.mode.code] }) ∧
      (∀ z, b.toNat ≤ 1 → p.mc.mode = .stopped → (p.zone z).state = .fault →
        (∀ w, w < z → (p.zone w).state ≠ .fault) →
        exec (.restore tag args) s = .next { s with part := p.responded tag 0x06 args .faultPresent [finByte z] }) ∧
      (∀ z, b.toNat ≤ 1 → p.mc.mode = .stopped → noFault → ((p.zone z).state = .moving ∨ (p.zone z).state = .releasing) →
        (∀ w, w < z → (p.zone w).state ≠ .moving ∧ (p.zone w).state ≠ .releasing) →
        exec (.restore tag args) s = .next { s with part := p.responded tag 0x06 args .notSettled [finByte z] }) ∧
      (∀ (code : Nat) (cb : Byte), b.toNat ≤ 1 → p.mc.mode = .stopped → noFault → still → p.FirstReports 6 code cb →
        exec (.restore tag args) s =
          .next { s with part := p.responded tag 0x06 args .conditionPresent [BitVec.ofNat 8 code, cb] }) ∧
      (b.toNat ≤ 1 → p.mc.mode = .stopped → noFault → still → p.rs.requests = [] →
        (∀ i : EntryId, p.store.estops[i].isSome = true → p.mc.estopMem[i] ≠ some true) → p.ring.silent = false →
        p.ring.linkDown = false → p.lines.supplyWarn = false → (∀ z, (p.device z).latch = false) →
        p.lines.maintKey = false →
        exec (.restore tag args) s =
          .next { s with part :=
            (p.latchCleared.modeMade (if b = 0 then .runAuto else .runManual)).responded tag 0x06 args .success [] })) ∧
  (∀ (s : State) (tag : Byte) (args : List Byte), s.part.takesRequest = true →
      let p := s.part.frameTaken .cIn
      (p.mc.mode = .config →
        exec (.stop tag args) s = .next { s with part := p.responded tag 0x07 args .badMode [p.mc.mode.code] }) ∧
      (p.mc.mode ≠ .config →
        ∃ q : Part, exec (.stop tag args) s = .next { s with part := q.responded tag 0x07 args .success [] } ∧
          p.RaisedTo q .stopRequest))

/-! ## Requests: tables -/

/-- TABLE_WRITE (R2, R133): BAD_MODE outside CONFIG, TAINTED while the load is tainted, BAD_VALUE with field 0 for a
slot that does not exist, a flag that is none or a body too short; a clear flag unloads the slot; a set flag stores
the record or answers with the first field that fails. A write to an e-stop slot forgets its level; nothing else
changes. Rests on assumption log 10. -/
def Obligations.TableWriteChangesOneSlot : Prop :=
  ∀ (s : State) (tag t i l : Byte) (body : List Byte), s.part.takesRequest = true →
    let p := s.part.frameTaken .cIn
    let args := t :: i :: l :: body
    let written := fun (slot : Slot) (store : Store) =>
      match slot with
      | .estop e => { p with store := store, mc := { p.mc with estopMem := p.mc.estopMem.set e none } }
      | _ => { p with store := store }
    (p.mc.mode ≠ .config →
      exec (.tableWrite tag args) s = .next { s with part := p.responded tag 0x08 args .badMode [p.mc.mode.code] }) ∧
    (p.mc.mode = .config → p.mgmt.loadTainted = true →
      exec (.tableWrite tag args) s = .next { s with part := p.responded tag 0x08 args .tainted [] }) ∧
    (p.mc.mode = .config → p.mgmt.loadTainted = false →
      (slotOf t i = none ∨ 1 < l.toNat ∨ ∃ slot, slotOf t i = some slot ∧ l = 1 ∧ body.length < slot.bodyLength) →
      exec (.tableWrite tag args) s = .next { s with part := p.responded tag 0x08 args .badValue [0] }) ∧
    (∀ slot, p.mc.mode = .config → p.mgmt.loadTainted = false → slotOf t i = some slot → l = 0 →
      exec (.tableWrite tag args) s =
        .next { s with part := (written slot (p.store.unload slot)).responded tag 0x08 args .success [] }) ∧
    (∀ slot, p.mc.mode = .config → p.mgmt.loadTainted = false → slotOf t i = some slot → l = 1 →
      slot.bodyLength ≤ body.length →
      (∀ store, p.store.load slot body = .ok store →
        exec (.tableWrite tag args) s =
          .next { s with part := (written slot store).responded tag 0x08 args .success [] }) ∧
      (∀ n, p.store.load slot body = .error n →
        exec (.tableWrite tag args) s =
          .next { s with part := p.responded tag 0x08 args .badValue [BitVec.ofNat 8 n] }))

/-- TABLES_ERASE (R173): in CONFIG, tainted or not, every slot of tables 1 to 6 is unloaded, the parameters are at their
defaults and LOAD_TAINTED is clear; in any other mode it is refused with BAD_MODE and changes nothing. It changes
nothing else; that the e-stop level memory stands too is assumption log 17. -/
def Obligations.TablesEraseUnloadsEverySlot : Prop :=
  ∀ (s : State) (tag : Byte) (args : List Byte), s.part.takesRequest = true →
    let p := s.part.frameTaken .cIn
    (p.mc.mode ≠ .config →
      exec (.tablesErase tag args) s = .next { s with part := p.responded tag 0x0A args .badMode [p.mc.mode.code] }) ∧
    (p.mc.mode = .config →
      ∃ t : Store,
        exec (.tablesErase tag args) s =
          .next { s with part :=
            (({ p with store := t, mgmt := { p.mgmt with loadTainted := false } } : Part).responded tag 0x0A args
              .success []) } ∧
        (∀ n : NodeId, t.nodes[n] = none) ∧ (∀ z : ZoneId, t.zones[z] = none) ∧ (∀ r : RouteId, t.routes[r] = none) ∧
        (∀ w : SwitchId, t.switches[w] = none) ∧ (∀ e : EntryId, t.placement[e] = none ∧ t.estops[e] = none) ∧
        t.params =
          { cyclePeriod := 10, silenceLimit := 200, unlisted := .drop, dispatchGap := 0, switchLimit := 5000
            slowThreshold := 0, lapThreshold := 0 })

/-- The body that a slot reads back, written to the slot again, leaves the store as it is: no field of any table's
record is lost, moved or changed by its layout. -/
def Obligations.StoredBodiesReadBackAsTheirRecords : Prop :=
  ∀ (t : Store) (slot : Slot) (body : List Byte), t.Valid → t.body slot = some body →
    body.length = slot.bodyLength ∧ t.load slot body = .ok t

/-! ## Requests: recovery -/

/-- OVERRIDE_RELEASE (R141 to R143). Its refusals in the order of its checks: BAD_MODE and BAD_VALUE leave the budget, a
budget of 0 locks it, one that no QUERY_ZONE of the zone precedes, or that quotes another epoch, costs one, and one that
the zone, its train or its successor does not allow is BAD_STATE, the request for the zone gone. Otherwise, with no
request or setting for the zone to clear and none that an examination could start, the successor that the branch gives
is RESERVED for the train, a SET route without locks is made, the permit is OPEN, ROUTE_SET is queued, the budget stays;
and where OPEN_FB already reads active the release starts at once. Rests on assumption log 10, 12 and 25. -/
def Obligations.OverrideReleaseTestsAndOpensARoute : Prop :=
  (∀ (s : State) (tag zb hi lo : Byte) (rest : List Byte), s.part.takesRequest = true →
      let p := s.part.frameTaken .cIn
      let args := zb :: hi :: lo :: rest
      (p.mc.mode ≠ .maint →
        exec (.overrideRelease tag args) s = .next { s with part := p.responded tag 0x0D args .badMode [p.mc.mode.code] }) ∧
      (p.mc.mode = .maint → 32 ≤ zb.toNat →
        exec (.overrideRelease tag args) s = .next { s with part := p.responded tag 0x0D args .badValue [1] }) ∧
      (∀ z : ZoneId, p.mc.mode = .maint → zb = finByte z → p.mc.budget = 0 →
        exec (.overrideRelease tag args) s = .next { s with part := p.responded tag 0x0D args .overrideLocked [0] }) ∧
      (∀ (z : ZoneId) (left : Fin 6), p.mc.mode = .maint → zb = finByte z → p.mc.budget.val = left.val + 1 →
        let spent := { p with mc := { p.mc with budget := left } }
        let preceded := p.mgmt.precedence = some { code := 0x0B, zone := some zb, success := true }
        let waiting := p.rs.requests.filter (fun r => r.zone != z)
        (¬preceded →
          exec (.overrideRelease tag args) s =
            .next { s with part := spent.responded tag 0x0D args .notPreceded [BitVec.ofNat 8 left.val] }) ∧
        (preceded → (p.zone z).epoch ≠ join16 hi lo →
          exec (.overrideRelease tag args) s =
            .next { s with part := spent.responded tag 0x0D args .staleEpoch [BitVec.ofNat 8 left.val] }) ∧
        (preceded → (p.zone z).epoch = join16 hi lo → (∀ rec x br sz, ¬p.MayOverride z rec x br sz) →
          (∀ g, p.rs.setting = some g → g.zone ≠ z) →
          exec (.overrideRelease tag args) s =
            .next { s with part :=
              (({ p with rs := { p.rs with requests := waiting } } : Part).responded tag 0x0D args .badState
                [BitVec.ofNat 8 p.mc.budget.val]) }))) ∧
  (∀ (s : State) (tag hi lo : Byte) (rest : List Byte) (z sz : ZoneId) (rec : ZoneRec) (x : TrainId) (br : Branch),
      s.part.takesRequest = true →
      let p := s.part.frameTaken .cIn
      let args := finByte z :: hi :: lo :: rest
      p.mc.mode = .maint → p.mc.budget ≠ 0 →
      p.mgmt.precedence = some { code := 0x0B, zone := some (finByte z), success := true } →
      (p.zone z).epoch = join16 hi lo → p.MayOverride z rec x br sz → (∀ q ∈ p.rs.requests, q.zone ≠ z) →
      (∀ g, p.rs.setting = some g → g.zone ≠ z) → (p.rs.requests = [] ∨ p.rs.setting.isSome = true) →
      let route : ActiveRoute := { zone := z, train := x, branch := br, succ := sz, locks := [], phase := .set }
      let opened :=
        { p.reservedFor sz x with
          rs := { p.rs with routes := p.rs.routes ++ [route] }
          devices := p.devices.set z { p.device z with permit := .opened }
          mgmt := p.mgmt.queueEvent p.ring.ringTime (some z) (some x) (.routeSet br) }
      (p.openFb rec = false →
        exec (.overrideRelease tag args) s =
          .next { s with part := opened.responded tag 0x0D args .success [BitVec.ofNat 8 p.mc.budget.val] }) ∧
      (p.openFb rec = true →
        ∃ q : Part,
          exec (.overrideRelease tag args) s =
            .next { s with part := q.responded tag 0x0D args .success [BitVec.ofNat 8 p.mc.budget.val] } ∧
          q.zone z = (p.zone z).releasingFrom rec p.ring.ringTime ∧
          q.rs = { p.rs with routes := p.rs.routes ++ [{ route with phase := .committed }] } ∧
          q.devices = opened.devices ∧ q.zone sz = opened.zone sz ∧ q.mc = p.mc ∧ q.ring = p.ring ∧ q.store = p.store))

/-- RECONCILE (R138 to R140). PLACE, with its preconditions met, holds the train in the zone with a new epoch, the train
PRESENT with it as its head zone and no tail or reserved zone, its divert mark, laps and service-due flag kept, and
every other FAULT zone that named it naming none. REMOVE and CLEAR, stated for STOPPED, make the zone FREE with its FREE
field values and a new epoch; REMOVE makes the train ABSENT, CLEAR ends the reservation the zone named. Refused are, in
this order: any other mode with BAD_MODE, a zone, action or train byte out of range with BAD_VALUE, a zone or train in
another state with BAD_STATE and the zone state, and with SENSOR_DISAGREES a PLACE whose STOP input reads inactive and a
REMOVE or CLEAR with a track sensor active, the first in the order TRAP_A, TRAP_B, STOP, CLEAR. Rests on assumption log
10 and 13. -/
def Obligations.ReconcilePlacesRemovesAndClears : Prop :=
  ∀ (s : State) (tag : Byte) (rest : List Byte) (z : ZoneId), s.part.takesRequest = true →
    let p := s.part.frameTaken .cIn
    let place := fun (zb tb : Byte) => zb :: 0 :: tb :: rest
    let remove := fun (zb : Byte) => zb :: 1 :: rest
    let clear := fun (zb : Byte) => zb :: 2 :: rest
    let answered := fun (c : Instr) (args : List Byte) (q : Part) (result : Result) (data : List Byte) =>
      exec c s = .next { s with part := q.responded tag 0x0E args result data }
    let refused := fun (args : List Byte) (result : Result) (data : List Byte) =>
      answered (.reconcilePlace tag args) args p result data ∧ answered (.reconcileRemove tag args) args p result data ∧
        answered (.reconcileClear tag args) args p result data
    let allowed := p.mc.mode = .stopped ∨ p.mc.mode = .maint
    let loaded := p.store.zones[z].isSome = true
    let placeable := fun (x : TrainId) =>
      loaded ∧
      (((p.zone z).state = .free ∧ (p.zone z).flank = 0) ∨
        ((p.zone z).state = .fault ∧ ((p.zone z).occupant = none ∨ (p.zone z).occupant = some x))) ∧
      ((p.train x).state = .present → (p.train x).head = some z) ∧ (p.train x).tail = none
    let removable := fun (x : TrainId) =>
      loaded ∧ ((p.zone z).state = .held ∨ (p.zone z).state = .fault) ∧ (p.zone z).occupant = some x ∧
        (p.train x).head = some z ∧ (p.train x).tail = none
    let clearable := loaded ∧ (p.zone z).state = .fault ∧
      ∀ x, (p.zone z).occupant = some x → (p.train x).reserved = some z ∧ (p.train x).head ≠ some z
    let sensors := fun (rec : ZoneRec) => [rec.trapA] ++ rec.trapB.toList ++ [rec.stop, rec.clear]
    let freed := fun (q : Part) =>
      q.zone z =
          { ZoneDyn.reset with
            state := .free, epoch := (p.zone z).epoch + 1, lastBranch := (p.zone z).lastBranch
            flank := (q.zone z).flank } ∧
        q.mc = p.mc ∧ q.ring = p.ring ∧ q.store = p.store
    let badState := [(p.zone z).state.code]
    (¬allowed → ∀ zb tb, refused (place zb tb) .badMode [p.mc.mode.code] ∧ refused (remove zb) .badMode [p.mc.mode.code] ∧
      refused (clear zb) .badMode [p.mc.mode.code]) ∧
    (allowed → ∀ zb tb, 32 ≤ zb.toNat → refused (place zb tb) .badValue [1] ∧ refused (remove zb) .badValue [1] ∧
      refused (clear zb) .badValue [1]) ∧
    (allowed → ∀ action : Byte, 2 < action.toNat → refused (finByte z :: action :: rest) .badValue [2]) ∧
    (allowed → ∀ tb : Byte, tb = 0 ∨ 8 < tb.toNat → refused (place (finByte z) tb) .badValue [3]) ∧
    (∀ x, allowed → ¬placeable x → refused (place (finByte z) (trainByte (some x))) .badState badState) ∧
    (allowed → (∀ x, ¬removable x) → refused (remove (finByte z)) .badState badState) ∧
    (allowed → ¬clearable → refused (clear (finByte z)) .badState badState) ∧
    (∀ rec x, allowed → p.store.zones[z] = some rec → placeable x → p.level rec.stop = false →
      refused (place (finByte z) (trainByte (some x))) .sensorDisagrees [nodeByte rec.stop.node, finByte rec.stop.ch]) ∧
    (∀ rec ref, allowed → p.store.zones[z] = some rec → (sensors rec).find? p.level = some ref →
      (∀ x, removable x → refused (remove (finByte z)) .sensorDisagrees [nodeByte ref.node, finByte ref.ch]) ∧
      (clearable → refused (clear (finByte z)) .sensorDisagrees [nodeByte ref.node, finByte ref.ch])) ∧
    (∀ rec x, allowed → p.store.zones[z] = some rec → placeable x → p.level rec.stop = true →
      let args := place (finByte z) (trainByte (some x))
      ∃ q : Part, answered (.reconcilePlace tag args) args q .success (4 :: be16 ((p.zone z).epoch + 1)) ∧
        (q.zone z).state = .held ∧ (q.zone z).occupant = some x ∧ (q.zone z).epoch = (p.zone z).epoch + 1 ∧
        (q.zone z).reason = none ∧ (q.zone z).entryTime = none ∧ (q.zone z).speed = none ∧
        (q.zone z).deadline = none ∧ (q.zone z).remainder = none ∧ (q.zone z).trap = .none ∧
        q.train x =
          { p.train x with state := .present, head := some z, tail := none, reserved := none, lastSpeed := none } ∧
        (∀ w, w ≠ z → (p.zone w).state = .fault → (p.zone w).occupant = some x →
          (q.zone w).state = .fault ∧ (q.zone w).occupant = none ∧ (q.zone w).epoch = (p.zone w).epoch + 1) ∧
        q.mc = p.mc ∧ q.ring = p.ring ∧ q.store = p.store) ∧
    (∀ rec x, p.mc.mode = .stopped → p.store.zones[z] = some rec → (sensors rec).find? p.level = none → removable x →
      let args := remove (finByte z)
      ∃ q : Part, answered (.reconcileRemove tag args) args q .success (1 :: be16 ((p.zone z).epoch + 1)) ∧ freed q ∧
        q.train x = { p.train x with state := .absent, head := none, tail := none, reserved := none }) ∧
    (∀ rec, p.mc.mode = .stopped → p.store.zones[z] = some rec → (sensors rec).find? p.level = none → clearable →
      let args := clear (finByte z)
      ∃ q : Part, answered (.reconcileClear tag args) args q .success (1 :: be16 ((p.zone z).epoch + 1)) ∧ freed q ∧
        (∀ x, (p.zone z).occupant = some x → (q.train x).reserved = none) ∧
        ∀ x, { q.train x with reserved := (p.train x).reserved } = p.train x)

/-! ## Requests: divert marks, reporting and counters -/

/-- SET_DIVERT (R119): BAD_MODE in CONFIG, then BAD_VALUE with the field, and otherwise the answer carries the train's
divert mark and service-due flag; where no request can be started by the change, the mark is the value given and nothing
else changes. EVENT_CTRL (R177): a batch size of 0, 1, 2 or 4 becomes the pending setting with the mask, FAULT always in
it, and replaces any other; every other size is refused with BAD_VALUE, turns reporting off and empties the event queue.
A record created while reporting is off, or of a class that the mask leaves out, is not queued; any other takes the
sequence number and joins the back of the queue, or with 32 records waiting is discarded with its number and sets
EVQ_OVERFLOW (R176). Rests on assumption log 10. -/
def Obligations.DivertMarksAndReportingAreSet : Prop :=
  (∀ (s : State) (tag tb v : Byte) (rest : List Byte), s.part.takesRequest = true →
      let p := s.part.frameTaken .cIn
      let args := tb :: v :: rest
      (p.mc.mode = .config →
        exec (.setDivert tag args) s = .next { s with part := p.responded tag 0x0F args .badMode [p.mc.mode.code] }) ∧
      (p.mc.mode ≠ .config → tb = 0 ∨ 8 < tb.toNat →
        exec (.setDivert tag args) s = .next { s with part := p.responded tag 0x0F args .badValue [1] }) ∧
      (∀ x, p.mc.mode ≠ .config → tb = trainByte (some x) → 1 < v.toNat →
        exec (.setDivert tag args) s = .next { s with part := p.responded tag 0x0F args .badValue [2] }) ∧
      (∀ x, p.mc.mode ≠ .config → tb = trainByte (some x) → v.toNat ≤ 1 →
        (∃ q : Part, exec (.setDivert tag args) s =
          .next { s with part :=
            (q.responded tag 0x0F args .success
              [flagByte (q.train x).divert, flagByte (q.train x).serviceDue]) }) ∧
        (p.mc.mode = .stopped ∨ p.rs.requests = [] ∨ p.rs.setting.isSome = true →
          exec (.setDivert tag args) s =
            .next { s with part :=
              ((p.modTrain x (fun t => { t with divert := v == 1 })).responded tag 0x0F args .success
                [v, flagByte (p.train x).serviceDue]) }))) ∧
  (∀ (s : State) (tag size mask : Byte) (rest : List Byte), s.part.takesRequest = true →
      let p := s.part.frameTaken .cIn
      let args := size :: mask :: rest
      (∀ b : BatchSize, size = BitVec.ofNat 8 b.toNat →
        let setting : Reporting :=
          { batch := b, mask := { tracking := mask.getLsbD 0, dispatch := mask.getLsbD 1, health := mask.getLsbD 3 } }
        exec (.eventCtrl tag args) s =
          .next { s with part :=
            (({ p with mgmt := { p.mgmt with setting := some setting } } : Part).responded tag 0x10 args .success
              [size, mask &&& 0x0B ||| 4]) }) ∧
      (size ≠ 0 → size ≠ 1 → size ≠ 2 → size ≠ 4 →
        exec (.eventCtrl tag args) s =
          .next { s with part :=
            (({ p with mgmt :=
                { p.mgmt with reporting := { p.mgmt.reporting with batch := .off }, setting := none
                              events := [] } } : Part).responded tag 0x10 args .badValue [1]) })) ∧
  (∀ (m : Mgmt) (t : RingTime) (z : Option ZoneId) (x : Option TrainId) (body : EventBody),
      let enabled : Bool :=
        match body with
        | .zoneEntered _ | .trainHeld _ | .trainReleased _ | .zoneCleared | .earlyArrival _ | .underspeed _
        | .trapExpired | .lateStop => m.reporting.mask.tracking
        | .routeSet _ | .routeFailed _ | .dispatched _ | .dispatchRefused _ => m.reporting.mask.dispatch
        | .healthSlow _ | .healthStray _ | .healthEdgeLoss _ | .serviceDue _ => m.reporting.mask.health
        | .trackingFault _ | .overspeed _ | .deviceFault _ | .switchFault _ _ | .holdAll _ _ _ | .modeChanged _ _
        | .linkFault _ | .silence _ => true
      m.queueEvent t z x body =
        if m.reporting.batch = .off ∨ enabled = false then m
        else if m.events.length < 32 then
          { m with events := m.events ++ [{ seq := m.seq, time := t, zone := z, train := x, body := body }]
                   seq := m.seq + 1 }
        else { m with evqOverflow := true, seq := m.seq + 1 })

/-- COUNTERS_CLEAR sets every frame counter of all four ports to 0, its own reception included, and leaves the health
counts and the status flags; COUNTERS_READ refuses a port byte above 3 (R180). HEALTH_RESET (R185) sets the counts and
the flag of the one item named to 0 or clear, leaves everything else (HEALTH_ALERT, a train's divert mark, the last
edge counter) and answers as HEALTH_READ then would; a kind or index out of range is refused and changes nothing. The
data of HEALTH_RESET, and the index byte above its field, rest on assumption log 9 and 10. -/
def Obligations.CountsAreClearedOnRequest : Prop :=
  (∀ (s : State) (tag b : Byte) (args : List Byte), s.part.takesRequest = true →
      let p := s.part.frameTaken .cIn
      exec (.countersClear tag args) s =
        .next { s with part :=
          (({ p with cnt :=
              { p.cnt with cIn := ⟨0, 0, 0, 0, 0, 0, 0, 0⟩, fIn := ⟨0, 0, 0, 0, 0, 0, 0, 0⟩, fOut := ⟨0, 0, 0, 0⟩
                           cOutForwarded := 0 } } : Part).responded tag 0x12 args .success []) } ∧
      (3 < b.toNat →
        exec (.countersRead tag (b :: args)) s =
          .next { s with part := p.responded tag 0x11 (b :: args) .badValue [1] })) ∧
  (∀ (s : State) (tag k i : Byte) (rest : List Byte), s.part.takesRequest = true →
      let p := s.part.frameTaken .cIn
      let args := k :: i :: rest
      (∀ n : NodeId, k = 0 → nodeOf i = some n →
        let q := { p with cnt := { p.cnt with nodes := p.cnt.nodes.set n { stray := 0, edgeLoss := 0, alerted := false } } }
        exec (.healthReset tag args) s =
          .next { s with part := q.responded tag 0x14 args .success (healthData (.node n) q) }) ∧
      (∀ z : ZoneId, k = 1 → i = finByte z →
        let zero : DeviceHealth := { operations := 0, slow := 0, overrides := 0, alerted := false }
        let q := { p with cnt := { p.cnt with devices := p.cnt.devices.set z zero } }
        exec (.healthReset tag args) s =
          .next { s with part := q.responded tag 0x14 args .success (healthData (.device z) q) }) ∧
      (∀ x : TrainId, k = 2 → i = trainByte (some x) →
        let q := p.modTrain x (fun t => { t with laps := 0, serviceDue := false })
        exec (.healthReset tag args) s =
          .next { s with part := q.responded tag 0x14 args .success (healthData (.train x) q) }) ∧
      (2 < k.toNat → exec (.healthReset tag args) s = .next { s with part := p.responded tag 0x14 args .badValue [1] }) ∧
      ((k = 0 ∧ nodeOf i = none) ∨ (k = 1 ∧ 32 ≤ i.toNat) ∨ (k = 2 ∧ (i = 0 ∨ 8 < i.toNat)) →
        exec (.healthReset tag args) s = .next { s with part := p.responded tag 0x14 args .badValue [2] }))

/-! ## Invariants -/

/-- Every step keeps every loaded record inside the ranges of its table (R1). -/
def Obligations.EveryStepKeepsTheRecordsInRange : Prop :=
  ∀ s s' : State, s.part.store.Valid → step s = .next s' → s'.part.store.Valid

/-- HEALTHY is asserted in the running modes, out of reset, and never otherwise: every step keeps it so (R129). -/
def Obligations.EveryStepKeepsHealthyWithTheMode : Prop :=
  ∀ s s' : State, s.part.HealthyFollowsMode → step s = .next s' → s'.part.HealthyFollowsMode

/-- In CONFIG and STOPPED no permit is OPEN, no route is SET or being set and no request waits: every step keeps it
so. -/
def Obligations.EveryStepKeepsTheRideInterlocked : Prop :=
  ∀ s s' : State, s.part.Interlocked → step s = .next s' → s'.part.Interlocked

/-- Latch, causes, first cause and repetition go together, and so do the two monitors and their timers: every step
keeps it so. -/
def Obligations.EveryStepKeepsLatchAndMonitorsCoherent : Prop :=
  ∀ s s' : State, s.part.LatchCoherent → s.part.MonitorsCoherent → step s = .next s' →
    s'.part.LatchCoherent ∧ s'.part.MonitorsCoherent

/-- No step takes a queue past its capacity or a switch past 8 holders. -/
def Obligations.EveryStepKeepsQueuesWithinCapacity : Prop :=
  ∀ s s' : State, s.part.WithinCapacity → step s = .next s' → s'.part.WithinCapacity

/-- The fields of every zone go with its state: every step keeps it so. -/
def Obligations.EveryStepKeepsZonesCoherent : Prop :=
  ∀ s s' : State, s.part.ZonesCoherent → step s = .next s' → s'.part.ZonesCoherent
end

