-- ==== Sys2Proof/Laws/State.lean ====
section
/-! SUPPORT. The small lemmas of the state: one for each block and each change of the part, one for each record that is read
back after a change, and those of the working record of an event.  Later proofs cite these and unfold no update. -/

namespace Sys2Proof.Machine

/-! ### `Part.modZone` -/

@[simp] theorem Part.modZone_lines (p : Part) (z : ZoneId) (f : ZoneDyn → ZoneDyn) : (p.modZone z f).lines = p.lines := rfl
@[simp] theorem Part.modZone_store (p : Part) (z : ZoneId) (f : ZoneDyn → ZoneDyn) : (p.modZone z f).store = p.store := rfl
@[simp] theorem Part.modZone_cls (p : Part) (z : ZoneId) (f : ZoneDyn → ZoneDyn) : (p.modZone z f).cls = p.cls := rfl
@[simp] theorem Part.modZone_rs (p : Part) (z : ZoneId) (f : ZoneDyn → ZoneDyn) : (p.modZone z f).rs = p.rs := rfl
@[simp] theorem Part.modZone_devices (p : Part) (z : ZoneId) (f : ZoneDyn → ZoneDyn) : (p.modZone z f).devices = p.devices := rfl
@[simp] theorem Part.modZone_dsp (p : Part) (z : ZoneId) (f : ZoneDyn → ZoneDyn) : (p.modZone z f).dsp = p.dsp := rfl
@[simp] theorem Part.modZone_mc (p : Part) (z : ZoneId) (f : ZoneDyn → ZoneDyn) : (p.modZone z f).mc = p.mc := rfl
@[simp] theorem Part.modZone_ring (p : Part) (z : ZoneId) (f : ZoneDyn → ZoneDyn) : (p.modZone z f).ring = p.ring := rfl
@[simp] theorem Part.modZone_mgmt (p : Part) (z : ZoneId) (f : ZoneDyn → ZoneDyn) : (p.modZone z f).mgmt = p.mgmt := rfl
@[simp] theorem Part.modZone_cnt (p : Part) (z : ZoneId) (f : ZoneDyn → ZoneDyn) : (p.modZone z f).cnt = p.cnt := rfl
@[simp] theorem Part.modZone_device (p : Part) (z : ZoneId) (f : ZoneDyn → ZoneDyn) (w : ZoneId) :
    (p.modZone z f).device w = p.device w := rfl
@[simp] theorem Part.modZone_switch (p : Part) (z : ZoneId) (f : ZoneDyn → ZoneDyn) (j : SwitchId) :
    (p.modZone z f).switch j = p.switch j := rfl
@[simp] theorem Part.modZone_zoneRec (p : Part) (z : ZoneId) (f : ZoneDyn → ZoneDyn) (w : ZoneId) :
    (p.modZone z f).zoneRec w = p.zoneRec w := rfl
@[simp] theorem Part.modZone_now (p : Part) (z : ZoneId) (f : ZoneDyn → ZoneDyn) :
    (p.modZone z f).now = p.now:= rfl
@[simp] theorem Part.modZone_mode (p : Part) (z : ZoneId) (f : ZoneDyn → ZoneDyn) :
    (p.modZone z f).mode = p.mode := rfl
@[simp] theorem Part.modZone_cycleTicks (p : Part) (z : ZoneId) (f : ZoneDyn → ZoneDyn) :
    (p.modZone z f).cycleTicks = p.cycleTicks := rfl
@[simp] theorem Part.modZone_level (p : Part) (z : ZoneId) (f : ZoneDyn → ZoneDyn) (r : SensorRef) :
    (p.modZone z f).level r = p.level r := rfl
@[simp] theorem Part.modZone_train (p : Part) (z : ZoneId) (f : ZoneDyn → ZoneDyn) (x : TrainId) :
    (p.modZone z f).train x = p.train x := rfl
@[simp] theorem Part.modZone_zone_self (p : Part) (z : ZoneId) (f : ZoneDyn → ZoneDyn) :
    (p.modZone z f).zone z = f (p.zone z) := by simp [Part.zone, Part.modZone]
theorem Part.modZone_zone_ne (p : Part) {z w : ZoneId} (f : ZoneDyn → ZoneDyn) (h : w ≠ z) :
    (p.modZone z f).zone w = p.zone w := by
  simpa [Part.zone, Part.modZone, Vector.getElem_set] using fun e => absurd (Fin.ext e.symm) h
theorem Part.modZone_zone (p : Part) (z w : ZoneId) (f : ZoneDyn → ZoneDyn) :
    (p.modZone z f).zone w = if w = z then f (p.zone z) else p.zone w := by
  by_cases h : w = z
  · subst h; simp
  · rw [if_neg h, Part.modZone_zone_ne p f h]

/-! ### `Part.modTrain` -/

@[simp] theorem Part.modTrain_lines (p : Part) (t : TrainId) (f : TrainRec → TrainRec) : (p.modTrain t f).lines = p.lines := rfl
@[simp] theorem Part.modTrain_store (p : Part) (t : TrainId) (f : TrainRec → TrainRec) : (p.modTrain t f).store = p.store := rfl
@[simp] theorem Part.modTrain_cls (p : Part) (t : TrainId) (f : TrainRec → TrainRec) : (p.modTrain t f).cls = p.cls := rfl
@[simp] theorem Part.modTrain_rs (p : Part) (t : TrainId) (f : TrainRec → TrainRec) : (p.modTrain t f).rs = p.rs := rfl
@[simp] theorem Part.modTrain_devices (p : Part) (t : TrainId) (f : TrainRec → TrainRec) : (p.modTrain t f).devices = p.devices := rfl
@[simp] theorem Part.modTrain_dsp (p : Part) (t : TrainId) (f : TrainRec → TrainRec) : (p.modTrain t f).dsp = p.dsp := rfl
@[simp] theorem Part.modTrain_mc (p : Part) (t : TrainId) (f : TrainRec → TrainRec) : (p.modTrain t f).mc = p.mc := rfl
@[simp] theorem Part.modTrain_ring (p : Part) (t : TrainId) (f : TrainRec → TrainRec) : (p.modTrain t f).ring = p.ring := rfl
@[simp] theorem Part.modTrain_mgmt (p : Part) (t : TrainId) (f : TrainRec → TrainRec) : (p.modTrain t f).mgmt = p.mgmt := rfl
@[simp] theorem Part.modTrain_cnt (p : Part) (t : TrainId) (f : TrainRec → TrainRec) : (p.modTrain t f).cnt = p.cnt := rfl
@[simp] theorem Part.modTrain_device (p : Part) (t : TrainId) (f : TrainRec → TrainRec) (w : ZoneId) :
    (p.modTrain t f).device w = p.device w := rfl
@[simp] theorem Part.modTrain_switch (p : Part) (t : TrainId) (f : TrainRec → TrainRec) (j : SwitchId) :
    (p.modTrain t f).switch j = p.switch j := rfl
@[simp] theorem Part.modTrain_zoneRec (p : Part) (t : TrainId) (f : TrainRec → TrainRec) (w : ZoneId) :
    (p.modTrain t f).zoneRec w = p.zoneRec w := rfl
@[simp] theorem Part.modTrain_now (p : Part) (t : TrainId) (f : TrainRec → TrainRec) :
    (p.modTrain t f).now = p.now:= rfl
@[simp] theorem Part.modTrain_mode (p : Part) (t : TrainId) (f : TrainRec → TrainRec) :
    (p.modTrain t f).mode = p.mode := rfl
@[simp] theorem Part.modTrain_cycleTicks (p : Part) (t : TrainId) (f : TrainRec → TrainRec) :
    (p.modTrain t f).cycleTicks = p.cycleTicks := rfl
@[simp] theorem Part.modTrain_level (p : Part) (t : TrainId) (f : TrainRec → TrainRec) (r : SensorRef) :
    (p.modTrain t f).level r = p.level r := rfl
@[simp] theorem Part.modTrain_zone (p : Part) (t : TrainId) (f : TrainRec → TrainRec) (w : ZoneId) :
    (p.modTrain t f).zone w = p.zone w := rfl
@[simp] theorem Part.modTrain_train_self (p : Part) (t : TrainId) (f : TrainRec → TrainRec) :
    (p.modTrain t f).train t = f (p.train t) := by simp [Part.train, Part.modTrain]
theorem Part.modTrain_train (p : Part) (t x : TrainId) (f : TrainRec → TrainRec) :
    (p.modTrain t f).train x = if x = t then f (p.train t) else p.train x := by
  by_cases h : x = t
  · subst h; simp
  · simpa [Part.train, Part.modTrain, Vector.getElem_set, h] using fun e => absurd (Fin.ext e.symm) h

/-! ### `Part.modDevice` -/

@[simp] theorem Part.modDevice_lines (p : Part) (z : ZoneId) (f : DeviceRec → DeviceRec) : (p.modDevice z f).lines = p.lines := rfl
@[simp] theorem Part.modDevice_store (p : Part) (z : ZoneId) (f : DeviceRec → DeviceRec) : (p.modDevice z f).store = p.store := rfl
@[simp] theorem Part.modDevice_cls (p : Part) (z : ZoneId) (f : DeviceRec → DeviceRec) : (p.modDevice z f).cls = p.cls := rfl
@[simp] theorem Part.modDevice_trk (p : Part) (z : ZoneId) (f : DeviceRec → DeviceRec) : (p.modDevice z f).trk = p.trk := rfl
@[simp] theorem Part.modDevice_rs (p : Part) (z : ZoneId) (f : DeviceRec → DeviceRec) : (p.modDevice z f).rs = p.rs := rfl
@[simp] theorem Part.modDevice_devices (p : Part) (z : ZoneId) (f : DeviceRec → DeviceRec) : (p.modDevice z f).devices = p.devices.set z (f p.devices[z]) := rfl
@[simp] theorem Part.modDevice_dsp (p : Part) (z : ZoneId) (f : DeviceRec → DeviceRec) : (p.modDevice z f).dsp = p.dsp := rfl
@[simp] theorem Part.modDevice_mc (p : Part) (z : ZoneId) (f : DeviceRec → DeviceRec) : (p.modDevice z f).mc = p.mc := rfl
@[simp] theorem Part.modDevice_ring (p : Part) (z : ZoneId) (f : DeviceRec → DeviceRec) : (p.modDevice z f).ring = p.ring := rfl
@[simp] theorem Part.modDevice_mgmt (p : Part) (z : ZoneId) (f : DeviceRec → DeviceRec) : (p.modDevice z f).mgmt = p.mgmt := rfl
@[simp] theorem Part.modDevice_cnt (p : Part) (z : ZoneId) (f : DeviceRec → DeviceRec) : (p.modDevice z f).cnt = p.cnt := rfl
@[simp] theorem Part.modDevice_zone (p : Part) (z : ZoneId) (f : DeviceRec → DeviceRec) (w : ZoneId) :
    (p.modDevice z f).zone w = p.zone w := rfl
@[simp] theorem Part.modDevice_train (p : Part) (z : ZoneId) (f : DeviceRec → DeviceRec) (x : TrainId) :
    (p.modDevice z f).train x = p.train x := rfl
@[simp] theorem Part.modDevice_switch (p : Part) (z : ZoneId) (f : DeviceRec → DeviceRec) (j : SwitchId) :
    (p.modDevice z f).switch j = p.switch j := rfl
@[simp] theorem Part.modDevice_zoneRec (p : Part) (z : ZoneId) (f : DeviceRec → DeviceRec) (w : ZoneId) :
    (p.modDevice z f).zoneRec w = p.zoneRec w := rfl
@[simp] theorem Part.modDevice_now (p : Part) (z : ZoneId) (f : DeviceRec → DeviceRec) :
    (p.modDevice z f).now = p.now:= rfl
@[simp] theorem Part.modDevice_mode (p : Part) (z : ZoneId) (f : DeviceRec → DeviceRec) :
    (p.modDevice z f).mode = p.mode := rfl
@[simp] theorem Part.modDevice_cycleTicks (p : Part) (z : ZoneId) (f : DeviceRec → DeviceRec) :
    (p.modDevice z f).cycleTicks = p.cycleTicks := rfl
@[simp] theorem Part.modDevice_level (p : Part) (z : ZoneId) (f : DeviceRec → DeviceRec) (r : SensorRef) :
    (p.modDevice z f).level r = p.level r := rfl
@[simp] theorem Part.modDevice_device_self (p : Part) (z : ZoneId) (f : DeviceRec → DeviceRec) :
    (p.modDevice z f).device z = f (p.device z) := by simp [Part.device, Part.modDevice]
theorem Part.modDevice_device (p : Part) (z w : ZoneId) (f : DeviceRec → DeviceRec) :
    (p.modDevice z f).device w = if w = z then f (p.device z) else p.device w := by
  by_cases h : w = z
  · subst h; simp
  · simpa [Part.device, Part.modDevice, Vector.getElem_set, h] using fun e => absurd (Fin.ext e.symm) h

/-! ### `Part.modSwitch` -/

@[simp] theorem Part.modSwitch_lines (p : Part) (i : SwitchId) (f : SwitchDyn → SwitchDyn) : (p.modSwitch i f).lines = p.lines := rfl
@[simp] theorem Part.modSwitch_store (p : Part) (i : SwitchId) (f : SwitchDyn → SwitchDyn) : (p.modSwitch i f).store = p.store := rfl
@[simp] theorem Part.modSwitch_cls (p : Part) (i : SwitchId) (f : SwitchDyn → SwitchDyn) : (p.modSwitch i f).cls = p.cls := rfl
@[simp] theorem Part.modSwitch_trk (p : Part) (i : SwitchId) (f : SwitchDyn → SwitchDyn) : (p.modSwitch i f).trk = p.trk := rfl
@[simp] theorem Part.modSwitch_devices (p : Part) (i : SwitchId) (f : SwitchDyn → SwitchDyn) : (p.modSwitch i f).devices = p.devices := rfl
@[simp] theorem Part.modSwitch_dsp (p : Part) (i : SwitchId) (f : SwitchDyn → SwitchDyn) : (p.modSwitch i f).dsp = p.dsp := rfl
@[simp] theorem Part.modSwitch_mc (p : Part) (i : SwitchId) (f : SwitchDyn → SwitchDyn) : (p.modSwitch i f).mc = p.mc := rfl
@[simp] theorem Part.modSwitch_ring (p : Part) (i : SwitchId) (f : SwitchDyn → SwitchDyn) : (p.modSwitch i f).ring = p.ring := rfl
@[simp] theorem Part.modSwitch_mgmt (p : Part) (i : SwitchId) (f : SwitchDyn → SwitchDyn) : (p.modSwitch i f).mgmt = p.mgmt := rfl
@[simp] theorem Part.modSwitch_cnt (p : Part) (i : SwitchId) (f : SwitchDyn → SwitchDyn) : (p.modSwitch i f).cnt = p.cnt := rfl
@[simp] theorem Part.modSwitch_zone (p : Part) (i : SwitchId) (f : SwitchDyn → SwitchDyn) (w : ZoneId) :
    (p.modSwitch i f).zone w = p.zone w := rfl
@[simp] theorem Part.modSwitch_train (p : Part) (i : SwitchId) (f : SwitchDyn → SwitchDyn) (x : TrainId) :
    (p.modSwitch i f).train x = p.train x := rfl
@[simp] theorem Part.modSwitch_device (p : Part) (i : SwitchId) (f : SwitchDyn → SwitchDyn) (w : ZoneId) :
    (p.modSwitch i f).device w = p.device w := rfl
@[simp] theorem Part.modSwitch_zoneRec (p : Part) (i : SwitchId) (f : SwitchDyn → SwitchDyn) (w : ZoneId) :
    (p.modSwitch i f).zoneRec w = p.zoneRec w := rfl
@[simp] theorem Part.modSwitch_now (p : Part) (i : SwitchId) (f : SwitchDyn → SwitchDyn) :
    (p.modSwitch i f).now = p.now:= rfl
@[simp] theorem Part.modSwitch_mode (p : Part) (i : SwitchId) (f : SwitchDyn → SwitchDyn) :
    (p.modSwitch i f).mode = p.mode := rfl
@[simp] theorem Part.modSwitch_cycleTicks (p : Part) (i : SwitchId) (f : SwitchDyn → SwitchDyn) :
    (p.modSwitch i f).cycleTicks = p.cycleTicks := rfl
@[simp] theorem Part.modSwitch_level (p : Part) (i : SwitchId) (f : SwitchDyn → SwitchDyn) (r : SensorRef) :
    (p.modSwitch i f).level r = p.level r := rfl
@[simp] theorem Part.modSwitch_switch_self (p : Part) (i : SwitchId) (f : SwitchDyn → SwitchDyn) :
    (p.modSwitch i f).switch i = f (p.switch i) := by simp [Part.switch, Part.modSwitch]
theorem Part.modSwitch_switch (p : Part) (i j : SwitchId) (f : SwitchDyn → SwitchDyn) :
    (p.modSwitch i f).switch j = if j = i then f (p.switch i) else p.switch j := by
  by_cases h : j = i
  · subst h; simp
  · simpa [Part.switch, Part.modSwitch, Vector.getElem_set, h] using fun e => absurd (Fin.ext e.symm) h
@[simp] theorem Part.modSwitch_setting (p : Part) (i : SwitchId) (f : SwitchDyn → SwitchDyn) :
    (p.modSwitch i f).rs.setting = p.rs.setting := rfl
@[simp] theorem Part.modSwitch_requests (p : Part) (i : SwitchId) (f : SwitchDyn → SwitchDyn) :
    (p.modSwitch i f).rs.requests = p.rs.requests := rfl
@[simp] theorem Part.modSwitch_stack (p : Part) (i : SwitchId) (f : SwitchDyn → SwitchDyn) :
    (p.modSwitch i f).rs.stack = p.rs.stack := rfl
@[simp] theorem Part.modSwitch_routes (p : Part) (i : SwitchId) (f : SwitchDyn → SwitchDyn) :
    (p.modSwitch i f).rs.routes = p.rs.routes := rfl
@[simp] theorem Part.modSwitch_timer (p : Part) (i : SwitchId) (f : SwitchDyn → SwitchDyn) :
    (p.modSwitch i f).rs.timer = p.rs.timer := rfl

/-! ### `Part.modDeviceHealth` -/

@[simp] theorem Part.modDeviceHealth_lines (p : Part) (z : ZoneId) (f : DeviceHealth → DeviceHealth) : (p.modDeviceHealth z f).lines = p.lines := rfl
@[simp] theorem Part.modDeviceHealth_store (p : Part) (z : ZoneId) (f : DeviceHealth → DeviceHealth) : (p.modDeviceHealth z f).store = p.store := rfl
@[simp] theorem Part.modDeviceHealth_cls (p : Part) (z : ZoneId) (f : DeviceHealth → DeviceHealth) : (p.modDeviceHealth z f).cls = p.cls := rfl
@[simp] theorem Part.modDeviceHealth_trk (p : Part) (z : ZoneId) (f : DeviceHealth → DeviceHealth) : (p.modDeviceHealth z f).trk = p.trk := rfl
@[simp] theorem Part.modDeviceHealth_rs (p : Part) (z : ZoneId) (f : DeviceHealth → DeviceHealth) : (p.modDeviceHealth z f).rs = p.rs := rfl
@[simp] theorem Part.modDeviceHealth_devices (p : Part) (z : ZoneId) (f : DeviceHealth → DeviceHealth) : (p.modDeviceHealth z f).devices = p.devices := rfl
@[simp] theorem Part.modDeviceHealth_dsp (p : Part) (z : ZoneId) (f : DeviceHealth → DeviceHealth) : (p.modDeviceHealth z f).dsp = p.dsp := rfl
@[simp] theorem Part.modDeviceHealth_mc (p : Part) (z : ZoneId) (f : DeviceHealth → DeviceHealth) : (p.modDeviceHealth z f).mc = p.mc := rfl
@[simp] theorem Part.modDeviceHealth_ring (p : Part) (z : ZoneId) (f : DeviceHealth → DeviceHealth) : (p.modDeviceHealth z f).ring = p.ring := rfl
@[simp] theorem Part.modDeviceHealth_mgmt (p : Part) (z : ZoneId) (f : DeviceHealth → DeviceHealth) : (p.modDeviceHealth z f).mgmt = p.mgmt := rfl
@[simp] theorem Part.modDeviceHealth_zone (p : Part) (z : ZoneId) (f : DeviceHealth → DeviceHealth) (w : ZoneId) :
    (p.modDeviceHealth z f).zone w = p.zone w := rfl
@[simp] theorem Part.modDeviceHealth_train (p : Part) (z : ZoneId) (f : DeviceHealth → DeviceHealth) (x : TrainId) :
    (p.modDeviceHealth z f).train x = p.train x := rfl
@[simp] theorem Part.modDeviceHealth_device (p : Part) (z : ZoneId) (f : DeviceHealth → DeviceHealth) (w : ZoneId) :
    (p.modDeviceHealth z f).device w = p.device w := rfl
@[simp] theorem Part.modDeviceHealth_switch (p : Part) (z : ZoneId) (f : DeviceHealth → DeviceHealth) (j : SwitchId) :
    (p.modDeviceHealth z f).switch j = p.switch j := rfl
@[simp] theorem Part.modDeviceHealth_zoneRec (p : Part) (z : ZoneId) (f : DeviceHealth → DeviceHealth) (w : ZoneId) :
    (p.modDeviceHealth z f).zoneRec w = p.zoneRec w := rfl
@[simp] theorem Part.modDeviceHealth_now (p : Part) (z : ZoneId) (f : DeviceHealth → DeviceHealth) :
    (p.modDeviceHealth z f).now = p.now:= rfl
@[simp] theorem Part.modDeviceHealth_mode (p : Part) (z : ZoneId) (f : DeviceHealth → DeviceHealth) :
    (p.modDeviceHealth z f).mode = p.mode := rfl
@[simp] theorem Part.modDeviceHealth_cycleTicks (p : Part) (z : ZoneId) (f : DeviceHealth → DeviceHealth) :
    (p.modDeviceHealth z f).cycleTicks = p.cycleTicks := rfl
@[simp] theorem Part.modDeviceHealth_level (p : Part) (z : ZoneId) (f : DeviceHealth → DeviceHealth) (r : SensorRef) :
    (p.modDeviceHealth z f).level r = p.level r := rfl

/-! ### `Part.modNodeHealth` -/

@[simp] theorem Part.modNodeHealth_lines (p : Part) (n : NodeId) (f : NodeHealth → NodeHealth) : (p.modNodeHealth n f).lines = p.lines := rfl
@[simp] theorem Part.modNodeHealth_store (p : Part) (n : NodeId) (f : NodeHealth → NodeHealth) : (p.modNodeHealth n f).store = p.store := rfl
@[simp] theorem Part.modNodeHealth_cls (p : Part) (n : NodeId) (f : NodeHealth → NodeHealth) : (p.modNodeHealth n f).cls = p.cls := rfl
@[simp] theorem Part.modNodeHealth_trk (p : Part) (n : NodeId) (f : NodeHealth → NodeHealth) : (p.modNodeHealth n f).trk = p.trk := rfl
@[simp] theorem Part.modNodeHealth_rs (p : Part) (n : NodeId) (f : NodeHealth → NodeHealth) : (p.modNodeHealth n f).rs = p.rs := rfl
@[simp] theorem Part.modNodeHealth_devices (p : Part) (n : NodeId) (f : NodeHealth → NodeHealth) : (p.modNodeHealth n f).devices = p.devices := rfl
@[simp] theorem Part.modNodeHealth_dsp (p : Part) (n : NodeId) (f : NodeHealth → NodeHealth) : (p.modNodeHealth n f).dsp = p.dsp := rfl
@[simp] theorem Part.modNodeHealth_mc (p : Part) (n : NodeId) (f : NodeHealth → NodeHealth) : (p.modNodeHealth n f).mc = p.mc := rfl
@[simp] theorem Part.modNodeHealth_ring (p : Part) (n : NodeId) (f : NodeHealth → NodeHealth) : (p.modNodeHealth n f).ring = p.ring := rfl
@[simp] theorem Part.modNodeHealth_mgmt (p : Part) (n : NodeId) (f : NodeHealth → NodeHealth) : (p.modNodeHealth n f).mgmt = p.mgmt := rfl
@[simp] theorem Part.modNodeHealth_zone (p : Part) (n : NodeId) (f : NodeHealth → NodeHealth) (w : ZoneId) :
    (p.modNodeHealth n f).zone w = p.zone w := rfl
@[simp] theorem Part.modNodeHealth_train (p : Part) (n : NodeId) (f : NodeHealth → NodeHealth) (x : TrainId) :
    (p.modNodeHealth n f).train x = p.train x := rfl
@[simp] theorem Part.modNodeHealth_device (p : Part) (n : NodeId) (f : NodeHealth → NodeHealth) (w : ZoneId) :
    (p.modNodeHealth n f).device w = p.device w := rfl
@[simp] theorem Part.modNodeHealth_switch (p : Part) (n : NodeId) (f : NodeHealth → NodeHealth) (j : SwitchId) :
    (p.modNodeHealth n f).switch j = p.switch j := rfl
@[simp] theorem Part.modNodeHealth_zoneRec (p : Part) (n : NodeId) (f : NodeHealth → NodeHealth) (w : ZoneId) :
    (p.modNodeHealth n f).zoneRec w = p.zoneRec w := rfl
@[simp] theorem Part.modNodeHealth_now (p : Part) (n : NodeId) (f : NodeHealth → NodeHealth) :
    (p.modNodeHealth n f).now = p.now:= rfl
@[simp] theorem Part.modNodeHealth_mode (p : Part) (n : NodeId) (f : NodeHealth → NodeHealth) :
    (p.modNodeHealth n f).mode = p.mode := rfl
@[simp] theorem Part.modNodeHealth_cycleTicks (p : Part) (n : NodeId) (f : NodeHealth → NodeHealth) :
    (p.modNodeHealth n f).cycleTicks = p.cycleTicks := rfl
@[simp] theorem Part.modNodeHealth_level (p : Part) (n : NodeId) (f : NodeHealth → NodeHealth) (r : SensorRef) :
    (p.modNodeHealth n f).level r = p.level r := rfl

/-! ### `Part.modRing` -/

@[simp] theorem Part.modRing_lines (p : Part) (f : RingPath → RingPath) : (p.modRing f).lines = p.lines := rfl
@[simp] theorem Part.modRing_store (p : Part) (f : RingPath → RingPath) : (p.modRing f).store = p.store := rfl
@[simp] theorem Part.modRing_cls (p : Part) (f : RingPath → RingPath) : (p.modRing f).cls = p.cls := rfl
@[simp] theorem Part.modRing_trk (p : Part) (f : RingPath → RingPath) : (p.modRing f).trk = p.trk := rfl
@[simp] theorem Part.modRing_rs (p : Part) (f : RingPath → RingPath) : (p.modRing f).rs = p.rs := rfl
@[simp] theorem Part.modRing_devices (p : Part) (f : RingPath → RingPath) : (p.modRing f).devices = p.devices := rfl
@[simp] theorem Part.modRing_dsp (p : Part) (f : RingPath → RingPath) : (p.modRing f).dsp = p.dsp := rfl
@[simp] theorem Part.modRing_mc (p : Part) (f : RingPath → RingPath) : (p.modRing f).mc = p.mc := rfl
@[simp] theorem Part.modRing_ring (p : Part) (f : RingPath → RingPath) : (p.modRing f).ring = f p.ring := rfl
@[simp] theorem Part.modRing_mgmt (p : Part) (f : RingPath → RingPath) : (p.modRing f).mgmt = p.mgmt := rfl
@[simp] theorem Part.modRing_cnt (p : Part) (f : RingPath → RingPath) : (p.modRing f).cnt = p.cnt := rfl
@[simp] theorem Part.modRing_zone (p : Part) (f : RingPath → RingPath) (w : ZoneId) :
    (p.modRing f).zone w = p.zone w := rfl
@[simp] theorem Part.modRing_train (p : Part) (f : RingPath → RingPath) (x : TrainId) :
    (p.modRing f).train x = p.train x := rfl
@[simp] theorem Part.modRing_device (p : Part) (f : RingPath → RingPath) (w : ZoneId) :
    (p.modRing f).device w = p.device w := rfl
@[simp] theorem Part.modRing_switch (p : Part) (f : RingPath → RingPath) (j : SwitchId) :
    (p.modRing f).switch j = p.switch j := rfl
@[simp] theorem Part.modRing_zoneRec (p : Part) (f : RingPath → RingPath) (w : ZoneId) :
    (p.modRing f).zoneRec w = p.zoneRec w := rfl
@[simp] theorem Part.modRing_mode (p : Part) (f : RingPath → RingPath) :
    (p.modRing f).mode = p.mode := rfl
@[simp] theorem Part.modRing_cycleTicks (p : Part) (f : RingPath → RingPath) :
    (p.modRing f).cycleTicks = p.cycleTicks := rfl
@[simp] theorem Part.modRing_level (p : Part) (f : RingPath → RingPath) (r : SensorRef) :
    (p.modRing f).level r = p.level r := rfl

/-! ### `Part.modSetter` -/

@[simp] theorem Part.modSetter_lines (p : Part) (f : RouteSetter → RouteSetter) : (p.modSetter f).lines = p.lines := rfl
@[simp] theorem Part.modSetter_store (p : Part) (f : RouteSetter → RouteSetter) : (p.modSetter f).store = p.store := rfl
@[simp] theorem Part.modSetter_cls (p : Part) (f : RouteSetter → RouteSetter) : (p.modSetter f).cls = p.cls := rfl
@[simp] theorem Part.modSetter_trk (p : Part) (f : RouteSetter → RouteSetter) : (p.modSetter f).trk = p.trk := rfl
@[simp] theorem Part.modSetter_rs (p : Part) (f : RouteSetter → RouteSetter) : (p.modSetter f).rs = f p.rs := rfl
@[simp] theorem Part.modSetter_devices (p : Part) (f : RouteSetter → RouteSetter) : (p.modSetter f).devices = p.devices := rfl
@[simp] theorem Part.modSetter_dsp (p : Part) (f : RouteSetter → RouteSetter) : (p.modSetter f).dsp = p.dsp := rfl
@[simp] theorem Part.modSetter_mc (p : Part) (f : RouteSetter → RouteSetter) : (p.modSetter f).mc = p.mc := rfl
@[simp] theorem Part.modSetter_ring (p : Part) (f : RouteSetter → RouteSetter) : (p.modSetter f).ring = p.ring := rfl
@[simp] theorem Part.modSetter_mgmt (p : Part) (f : RouteSetter → RouteSetter) : (p.modSetter f).mgmt = p.mgmt := rfl
@[simp] theorem Part.modSetter_cnt (p : Part) (f : RouteSetter → RouteSetter) : (p.modSetter f).cnt = p.cnt := rfl
@[simp] theorem Part.modSetter_zone (p : Part) (f : RouteSetter → RouteSetter) (w : ZoneId) :
    (p.modSetter f).zone w = p.zone w := rfl
@[simp] theorem Part.modSetter_train (p : Part) (f : RouteSetter → RouteSetter) (x : TrainId) :
    (p.modSetter f).train x = p.train x := rfl
@[simp] theorem Part.modSetter_device (p : Part) (f : RouteSetter → RouteSetter) (w : ZoneId) :
    (p.modSetter f).device w = p.device w := rfl
@[simp] theorem Part.modSetter_zoneRec (p : Part) (f : RouteSetter → RouteSetter) (w : ZoneId) :
    (p.modSetter f).zoneRec w = p.zoneRec w := rfl
@[simp] theorem Part.modSetter_now (p : Part) (f : RouteSetter → RouteSetter) :
    (p.modSetter f).now = p.now:= rfl
@[simp] theorem Part.modSetter_mode (p : Part) (f : RouteSetter → RouteSetter) :
    (p.modSetter f).mode = p.mode := rfl
@[simp] theorem Part.modSetter_cycleTicks (p : Part) (f : RouteSetter → RouteSetter) :
    (p.modSetter f).cycleTicks = p.cycleTicks := rfl
@[simp] theorem Part.modSetter_level (p : Part) (f : RouteSetter → RouteSetter) (r : SensorRef) :
    (p.modSetter f).level r = p.level r := rfl

/-! ### `Part.modMode` -/

@[simp] theorem Part.modMode_lines (p : Part) (f : ModeCtl → ModeCtl) : (p.modMode f).lines = p.lines := rfl
@[simp] theorem Part.modMode_store (p : Part) (f : ModeCtl → ModeCtl) : (p.modMode f).store = p.store := rfl
@[simp] theorem Part.modMode_cls (p : Part) (f : ModeCtl → ModeCtl) : (p.modMode f).cls = p.cls := rfl
@[simp] theorem Part.modMode_trk (p : Part) (f : ModeCtl → ModeCtl) : (p.modMode f).trk = p.trk := rfl
@[simp] theorem Part.modMode_rs (p : Part) (f : ModeCtl → ModeCtl) : (p.modMode f).rs = p.rs := rfl
@[simp] theorem Part.modMode_devices (p : Part) (f : ModeCtl → ModeCtl) : (p.modMode f).devices = p.devices := rfl
@[simp] theorem Part.modMode_dsp (p : Part) (f : ModeCtl → ModeCtl) : (p.modMode f).dsp = p.dsp := rfl
@[simp] theorem Part.modMode_mc (p : Part) (f : ModeCtl → ModeCtl) : (p.modMode f).mc = f p.mc := rfl
@[simp] theorem Part.modMode_ring (p : Part) (f : ModeCtl → ModeCtl) : (p.modMode f).ring = p.ring := rfl
@[simp] theorem Part.modMode_mgmt (p : Part) (f : ModeCtl → ModeCtl) : (p.modMode f).mgmt = p.mgmt := rfl
@[simp] theorem Part.modMode_cnt (p : Part) (f : ModeCtl → ModeCtl) : (p.modMode f).cnt = p.cnt := rfl
@[simp] theorem Part.modMode_zone (p : Part) (f : ModeCtl → ModeCtl) (w : ZoneId) :
    (p.modMode f).zone w = p.zone w := rfl
@[simp] theorem Part.modMode_train (p : Part) (f : ModeCtl → ModeCtl) (x : TrainId) :
    (p.modMode f).train x = p.train x := rfl
@[simp] theorem Part.modMode_device (p : Part) (f : ModeCtl → ModeCtl) (w : ZoneId) :
    (p.modMode f).device w = p.device w := rfl
@[simp] theorem Part.modMode_switch (p : Part) (f : ModeCtl → ModeCtl) (j : SwitchId) :
    (p.modMode f).switch j = p.switch j := rfl
@[simp] theorem Part.modMode_zoneRec (p : Part) (f : ModeCtl → ModeCtl) (w : ZoneId) :
    (p.modMode f).zoneRec w = p.zoneRec w := rfl
@[simp] theorem Part.modMode_now (p : Part) (f : ModeCtl → ModeCtl) :
    (p.modMode f).now = p.now:= rfl
@[simp] theorem Part.modMode_cycleTicks (p : Part) (f : ModeCtl → ModeCtl) :
    (p.modMode f).cycleTicks = p.cycleTicks := rfl
@[simp] theorem Part.modMode_level (p : Part) (f : ModeCtl → ModeCtl) (r : SensorRef) :
    (p.modMode f).level r = p.level r := rfl

/-! ### `Part.modMgmt` -/

@[simp] theorem Part.modMgmt_lines (p : Part) (f : Mgmt → Mgmt) : (p.modMgmt f).lines = p.lines := rfl
@[simp] theorem Part.modMgmt_store (p : Part) (f : Mgmt → Mgmt) : (p.modMgmt f).store = p.store := rfl
@[simp] theorem Part.modMgmt_cls (p : Part) (f : Mgmt → Mgmt) : (p.modMgmt f).cls = p.cls := rfl
@[simp] theorem Part.modMgmt_trk (p : Part) (f : Mgmt → Mgmt) : (p.modMgmt f).trk = p.trk := rfl
@[simp] theorem Part.modMgmt_rs (p : Part) (f : Mgmt → Mgmt) : (p.modMgmt f).rs = p.rs := rfl
@[simp] theorem Part.modMgmt_devices (p : Part) (f : Mgmt → Mgmt) : (p.modMgmt f).devices = p.devices := rfl
@[simp] theorem Part.modMgmt_dsp (p : Part) (f : Mgmt → Mgmt) : (p.modMgmt f).dsp = p.dsp := rfl
@[simp] theorem Part.modMgmt_mc (p : Part) (f : Mgmt → Mgmt) : (p.modMgmt f).mc = p.mc := rfl
@[simp] theorem Part.modMgmt_ring (p : Part) (f : Mgmt → Mgmt) : (p.modMgmt f).ring = p.ring := rfl
@[simp] theorem Part.modMgmt_mgmt (p : Part) (f : Mgmt → Mgmt) : (p.modMgmt f).mgmt = f p.mgmt := rfl
@[simp] theorem Part.modMgmt_cnt (p : Part) (f : Mgmt → Mgmt) : (p.modMgmt f).cnt = p.cnt := rfl
@[simp] theorem Part.modMgmt_zone (p : Part) (f : Mgmt → Mgmt) (w : ZoneId) :
    (p.modMgmt f).zone w = p.zone w := rfl
@[simp] theorem Part.modMgmt_train (p : Part) (f : Mgmt → Mgmt) (x : TrainId) :
    (p.modMgmt f).train x = p.train x := rfl
@[simp] theorem Part.modMgmt_device (p : Part) (f : Mgmt → Mgmt) (w : ZoneId) :
    (p.modMgmt f).device w = p.device w := rfl
@[simp] theorem Part.modMgmt_switch (p : Part) (f : Mgmt → Mgmt) (j : SwitchId) :
    (p.modMgmt f).switch j = p.switch j := rfl
@[simp] theorem Part.modMgmt_zoneRec (p : Part) (f : Mgmt → Mgmt) (w : ZoneId) :
    (p.modMgmt f).zoneRec w = p.zoneRec w := rfl
@[simp] theorem Part.modMgmt_now (p : Part) (f : Mgmt → Mgmt) :
    (p.modMgmt f).now = p.now:= rfl
@[simp] theorem Part.modMgmt_mode (p : Part) (f : Mgmt → Mgmt) :
    (p.modMgmt f).mode = p.mode := rfl
@[simp] theorem Part.modMgmt_cycleTicks (p : Part) (f : Mgmt → Mgmt) :
    (p.modMgmt f).cycleTicks = p.cycleTicks := rfl
@[simp] theorem Part.modMgmt_level (p : Part) (f : Mgmt → Mgmt) (r : SensorRef) :
    (p.modMgmt f).level r = p.level r := rfl

/-! ### `Part.modCounters` -/

@[simp] theorem Part.modCounters_lines (p : Part) (f : Counters → Counters) : (p.modCounters f).lines = p.lines := rfl
@[simp] theorem Part.modCounters_store (p : Part) (f : Counters → Counters) : (p.modCounters f).store = p.store := rfl
@[simp] theorem Part.modCounters_cls (p : Part) (f : Counters → Counters) : (p.modCounters f).cls = p.cls := rfl
@[simp] theorem Part.modCounters_trk (p : Part) (f : Counters → Counters) : (p.modCounters f).trk = p.trk := rfl
@[simp] theorem Part.modCounters_rs (p : Part) (f : Counters → Counters) : (p.modCounters f).rs = p.rs := rfl
@[simp] theorem Part.modCounters_devices (p : Part) (f : Counters → Counters) : (p.modCounters f).devices = p.devices := rfl
@[simp] theorem Part.modCounters_dsp (p : Part) (f : Counters → Counters) : (p.modCounters f).dsp = p.dsp := rfl
@[simp] theorem Part.modCounters_mc (p : Part) (f : Counters → Counters) : (p.modCounters f).mc = p.mc := rfl
@[simp] theorem Part.modCounters_ring (p : Part) (f : Counters → Counters) : (p.modCounters f).ring = p.ring := rfl
@[simp] theorem Part.modCounters_mgmt (p : Part) (f : Counters → Counters) : (p.modCounters f).mgmt = p.mgmt := rfl
@[simp] theorem Part.modCounters_cnt (p : Part) (f : Counters → Counters) : (p.modCounters f).cnt = f p.cnt := rfl
@[simp] theorem Part.modCounters_zone (p : Part) (f : Counters → Counters) (w : ZoneId) :
    (p.modCounters f).zone w = p.zone w := rfl
@[simp] theorem Part.modCounters_train (p : Part) (f : Counters → Counters) (x : TrainId) :
    (p.modCounters f).train x = p.train x := rfl
@[simp] theorem Part.modCounters_device (p : Part) (f : Counters → Counters) (w : ZoneId) :
    (p.modCounters f).device w = p.device w := rfl
@[simp] theorem Part.modCounters_switch (p : Part) (f : Counters → Counters) (j : SwitchId) :
    (p.modCounters f).switch j = p.switch j := rfl
@[simp] theorem Part.modCounters_zoneRec (p : Part) (f : Counters → Counters) (w : ZoneId) :
    (p.modCounters f).zoneRec w = p.zoneRec w := rfl
@[simp] theorem Part.modCounters_now (p : Part) (f : Counters → Counters) :
    (p.modCounters f).now = p.now:= rfl
@[simp] theorem Part.modCounters_mode (p : Part) (f : Counters → Counters) :
    (p.modCounters f).mode = p.mode := rfl
@[simp] theorem Part.modCounters_cycleTicks (p : Part) (f : Counters → Counters) :
    (p.modCounters f).cycleTicks = p.cycleTicks := rfl
@[simp] theorem Part.modCounters_level (p : Part) (f : Counters → Counters) (r : SensorRef) :
    (p.modCounters f).level r = p.level r := rfl

/-! ### `Part.queueEvent` -/

@[simp] theorem Part.queueEvent_lines (p : Part) (t : RingTime) (z : Option ZoneId) (x : Option TrainId) (b : EventBody) : (p.queueEvent t z x b).lines = p.lines := rfl
@[simp] theorem Part.queueEvent_store (p : Part) (t : RingTime) (z : Option ZoneId) (x : Option TrainId) (b : EventBody) : (p.queueEvent t z x b).store = p.store := rfl
@[simp] theorem Part.queueEvent_cls (p : Part) (t : RingTime) (z : Option ZoneId) (x : Option TrainId) (b : EventBody) : (p.queueEvent t z x b).cls = p.cls := rfl
@[simp] theorem Part.queueEvent_trk (p : Part) (t : RingTime) (z : Option ZoneId) (x : Option TrainId) (b : EventBody) : (p.queueEvent t z x b).trk = p.trk := rfl
@[simp] theorem Part.queueEvent_rs (p : Part) (t : RingTime) (z : Option ZoneId) (x : Option TrainId) (b : EventBody) : (p.queueEvent t z x b).rs = p.rs := rfl
@[simp] theorem Part.queueEvent_devices (p : Part) (t : RingTime) (z : Option ZoneId) (x : Option TrainId) (b : EventBody) : (p.queueEvent t z x b).devices = p.devices := rfl
@[simp] theorem Part.queueEvent_dsp (p : Part) (t : RingTime) (z : Option ZoneId) (x : Option TrainId) (b : EventBody) : (p.queueEvent t z x b).dsp = p.dsp := rfl
@[simp] theorem Part.queueEvent_mc (p : Part) (t : RingTime) (z : Option ZoneId) (x : Option TrainId) (b : EventBody) : (p.queueEvent t z x b).mc = p.mc := rfl
@[simp] theorem Part.queueEvent_ring (p : Part) (t : RingTime) (z : Option ZoneId) (x : Option TrainId) (b : EventBody) : (p.queueEvent t z x b).ring = p.ring := rfl
@[simp] theorem Part.queueEvent_mgmt (p : Part) (t : RingTime) (z : Option ZoneId) (x : Option TrainId) (b : EventBody) : (p.queueEvent t z x b).mgmt = p.mgmt.queueEvent t z x b := rfl
@[simp] theorem Part.queueEvent_cnt (p : Part) (t : RingTime) (z : Option ZoneId) (x : Option TrainId) (b : EventBody) : (p.queueEvent t z x b).cnt = p.cnt := rfl
@[simp] theorem Part.queueEvent_zone (p : Part) (t : RingTime) (z : Option ZoneId) (y : Option TrainId) (b : EventBody) (w : ZoneId) :
    (p.queueEvent t z y b).zone w = p.zone w := rfl
@[simp] theorem Part.queueEvent_train (p : Part) (t : RingTime) (z : Option ZoneId) (y : Option TrainId) (b : EventBody) (x : TrainId) :
    (p.queueEvent t z y b).train x = p.train x := rfl
@[simp] theorem Part.queueEvent_device (p : Part) (t : RingTime) (z : Option ZoneId) (y : Option TrainId) (b : EventBody) (w : ZoneId) :
    (p.queueEvent t z y b).device w = p.device w := rfl
@[simp] theorem Part.queueEvent_switch (p : Part) (t : RingTime) (z : Option ZoneId) (y : Option TrainId) (b : EventBody) (j : SwitchId) :
    (p.queueEvent t z y b).switch j = p.switch j := rfl
@[simp] theorem Part.queueEvent_zoneRec (p : Part) (t : RingTime) (z : Option ZoneId) (y : Option TrainId) (b : EventBody) (w : ZoneId) :
    (p.queueEvent t z y b).zoneRec w = p.zoneRec w := rfl
@[simp] theorem Part.queueEvent_now (p : Part) (t : RingTime) (z : Option ZoneId) (y : Option TrainId) (b : EventBody) :
    (p.queueEvent t z y b).now = p.now:= rfl
@[simp] theorem Part.queueEvent_mode (p : Part) (t : RingTime) (z : Option ZoneId) (y : Option TrainId) (b : EventBody) :
    (p.queueEvent t z y b).mode = p.mode := rfl
@[simp] theorem Part.queueEvent_cycleTicks (p : Part) (t : RingTime) (z : Option ZoneId) (y : Option TrainId) (b : EventBody) :
    (p.queueEvent t z y b).cycleTicks = p.cycleTicks := rfl
@[simp] theorem Part.queueEvent_level (p : Part) (t : RingTime) (z : Option ZoneId) (y : Option TrainId) (b : EventBody) (r : SensorRef) :
    (p.queueEvent t z y b).level r = p.level r := rfl

/-! ### The working record of an event -/

@[simp] theorem Ev.mod_p (e : Ev) (f : Part → Part) : (e.mod f).p = f e.p := rfl
@[simp] theorem Ev.mod_wake (e : Ev) (f : Part → Part) : (e.mod f).wake = e.wake := rfl
@[simp] theorem Ev.mod_raised (e : Ev) (f : Part → Part) : (e.mod f).raised = e.raised := rfl
@[simp] theorem Ev.mod_dispatches (e : Ev) (f : Part → Part) : (e.mod f).dispatches = e.dispatches := rfl
@[simp] theorem Ev.mod_late (e : Ev) (f : Part → Part) : (e.mod f).late = e.late := rfl
@[simp] theorem Ev.woken_p (e : Ev) : e.woken.p = e.p := rfl
@[simp] theorem Ev.woken_wake (e : Ev) : e.woken.wake = true := rfl
@[simp] theorem Ev.woken_raised (e : Ev) : e.woken.raised = e.raised := rfl
@[simp] theorem Ev.woken_dispatches (e : Ev) : e.woken.dispatches = e.dispatches := rfl
@[simp] theorem Ev.woken_late (e : Ev) : e.woken.late = e.late := rfl
@[simp] theorem Ev.raise_p (e : Ev) (c : Cause) (i : Option EntryId) : (e.raise c i).p = e.p := rfl
@[simp] theorem Ev.raise_wake (e : Ev) (c : Cause) (i : Option EntryId) : (e.raise c i).wake = e.wake := rfl
@[simp] theorem Ev.raise_raised (e : Ev) (c : Cause) (i : Option EntryId) :
    (e.raise c i).raised = e.raised ++ [{ cause := c, entry := i }] := rfl
@[simp] theorem Ev.raise_dispatches (e : Ev) (c : Cause) (i : Option EntryId) : (e.raise c i).dispatches = e.dispatches := rfl
@[simp] theorem Ev.raise_late (e : Ev) (c : Cause) (i : Option EntryId) : (e.raise c i).late = e.late := rfl
@[simp] theorem Ev.start_p (p : Part) : (Ev.start p).p = p := rfl
@[simp] theorem Ev.start_wake (p : Part) : (Ev.start p).wake = false := rfl
@[simp] theorem Ev.start_raised (p : Part) : (Ev.start p).raised = [] := rfl
@[simp] theorem Ev.start_dispatches (p : Part) : (Ev.start p).dispatches = [] := rfl
@[simp] theorem Ev.start_late (p : Part) : (Ev.start p).late = [] := rfl
@[simp] theorem Ev.record_p (e : Ev) (t : RingTime) (z : Option ZoneId) (x : Option TrainId) (b : EventBody) :
    (e.record t z x b).p = e.p.queueEvent t z x b := rfl
@[simp] theorem Ev.record_wake (e : Ev) (t : RingTime) (z : Option ZoneId) (x : Option TrainId) (b : EventBody) :
    (e.record t z x b).wake = e.wake := rfl
@[simp] theorem Ev.record_raised (e : Ev) (t : RingTime) (z : Option ZoneId) (x : Option TrainId) (b : EventBody) :
    (e.record t z x b).raised = e.raised := rfl
@[simp] theorem Ev.record_dispatches (e : Ev) (t : RingTime) (z : Option ZoneId) (x : Option TrainId) (b : EventBody) :
    (e.record t z x b).dispatches = e.dispatches := rfl
@[simp] theorem Ev.record_late (e : Ev) (t : RingTime) (z : Option ZoneId) (x : Option TrainId) (b : EventBody) :
    (e.record t z x b).late = e.late := rfl
@[simp] theorem Ev.modZone_p (e : Ev) (z : ZoneId) (f : ZoneDyn → ZoneDyn) :
    (e.modZone z f).p = e.p.modZone z f := rfl
@[simp] theorem Ev.modZone_wake (e : Ev) (z : ZoneId) (f : ZoneDyn → ZoneDyn) :
    (e.modZone z f).wake = e.wake := rfl
@[simp] theorem Ev.modZone_raised (e : Ev) (z : ZoneId) (f : ZoneDyn → ZoneDyn) :
    (e.modZone z f).raised = e.raised := rfl
@[simp] theorem Ev.modZone_dispatches (e : Ev) (z : ZoneId) (f : ZoneDyn → ZoneDyn) :
    (e.modZone z f).dispatches = e.dispatches := rfl
@[simp] theorem Ev.modZone_late (e : Ev) (z : ZoneId) (f : ZoneDyn → ZoneDyn) :
    (e.modZone z f).late = e.late := rfl
@[simp] theorem Ev.modTrain_p (e : Ev) (t : TrainId) (f : TrainRec → TrainRec) :
    (e.modTrain t f).p = e.p.modTrain t f := rfl
@[simp] theorem Ev.modTrain_wake (e : Ev) (t : TrainId) (f : TrainRec → TrainRec) :
    (e.modTrain t f).wake = e.wake := rfl
@[simp] theorem Ev.modTrain_raised (e : Ev) (t : TrainId) (f : TrainRec → TrainRec) :
    (e.modTrain t f).raised = e.raised := rfl
@[simp] theorem Ev.modTrain_dispatches (e : Ev) (t : TrainId) (f : TrainRec → TrainRec) :
    (e.modTrain t f).dispatches = e.dispatches := rfl
@[simp] theorem Ev.modTrain_late (e : Ev) (t : TrainId) (f : TrainRec → TrainRec) :
    (e.modTrain t f).late = e.late := rfl
@[simp] theorem Ev.setPermit_p (e : Ev) (z : ZoneId) (v : Permit) :
    (e.setPermit z v).p = e.p.modDevice z (fun d => { d with permit := v }) := rfl
@[simp] theorem Ev.setPermit_wake (e : Ev) (z : ZoneId) (v : Permit) :
    (e.setPermit z v).wake = e.wake := rfl
@[simp] theorem Ev.setPermit_raised (e : Ev) (z : ZoneId) (v : Permit) :
    (e.setPermit z v).raised = e.raised := rfl
@[simp] theorem Ev.setPermit_dispatches (e : Ev) (z : ZoneId) (v : Permit) :
    (e.setPermit z v).dispatches = e.dispatches := rfl
@[simp] theorem Ev.setPermit_late (e : Ev) (z : ZoneId) (v : Permit) :
    (e.setPermit z v).late = e.late := rfl

/-- What setting a zone's state and occupant makes of the part (R22). -/
@[simp] theorem Ev.setZone_p (e : Ev) (z : ZoneId) (st : ZoneState) (occ : Option TrainId) :
    (e.setZone z st occ).p = e.p.modZone z (fun d =>
      { d with state := st, occupant := occ
               epoch := if d.state = st ∧ d.occupant = occ then d.epoch else d.epoch + 1 }) := by
  unfold Ev.setZone; dsimp only; split <;> rfl
@[simp] theorem Ev.setZone_raised (e : Ev) (z : ZoneId) (st : ZoneState) (occ : Option TrainId) :
    (e.setZone z st occ).raised = e.raised := by unfold Ev.setZone; dsimp only; split <;> rfl
@[simp] theorem Ev.setZone_dispatches (e : Ev) (z : ZoneId) (st : ZoneState) (occ : Option TrainId) :
    (e.setZone z st occ).dispatches = e.dispatches := by unfold Ev.setZone; dsimp only; split <;> rfl
@[simp] theorem Ev.setZone_late (e : Ev) (z : ZoneId) (st : ZoneState) (occ : Option TrainId) :
    (e.setZone z st occ).late = e.late := by unfold Ev.setZone; dsimp only; split <;> rfl
/-- A zone's epoch rises by 1 when its state or occupant changes, and not otherwise (R22). -/
theorem Ev.setZone_epoch (e : Ev) (z : ZoneId) (st : ZoneState) (occ : Option TrainId) :
    ((e.setZone z st occ).p.zone z).epoch =
      if (e.p.zone z).state = st ∧ (e.p.zone z).occupant = occ then (e.p.zone z).epoch
      else (e.p.zone z).epoch + 1 := by simp
/-- What setting a divert mark makes of the part (R118). -/
@[simp] theorem Ev.setDivert_p (e : Ev) (t : TrainId) (v : Bool) :
    (e.setDivert t v).p = e.p.modTrain t (fun r => { r with divert := v }) := by
  unfold Ev.setDivert; dsimp only; split <;> rfl
@[simp] theorem Ev.setDivert_raised (e : Ev) (t : TrainId) (v : Bool) : (e.setDivert t v).raised = e.raised := by
  unfold Ev.setDivert; dsimp only; split <;> rfl
@[simp] theorem Ev.setDivert_dispatches (e : Ev) (t : TrainId) (v : Bool) :
    (e.setDivert t v).dispatches = e.dispatches := by unfold Ev.setDivert; dsimp only; split <;> rfl
@[simp] theorem Ev.setDivert_late (e : Ev) (t : TrainId) (v : Bool) : (e.setDivert t v).late = e.late := by
  unfold Ev.setDivert; dsimp only; split <;> rfl

/-! ### The event queue (R176) -/

@[simp] theorem Mgmt.queueEvent_responses (m : Mgmt) (t : RingTime) (z : Option ZoneId) (x : Option TrainId)
    (b : EventBody) : (m.queueEvent t z x b).responses = m.responses := by
  unfold Mgmt.queueEvent; split <;> [rfl; split <;> rfl]
@[simp] theorem Mgmt.queueEvent_precedence (m : Mgmt) (t : RingTime) (z : Option ZoneId) (x : Option TrainId)
    (b : EventBody) : (m.queueEvent t z x b).precedence = m.precedence := by
  unfold Mgmt.queueEvent; split <;> [rfl; split <;> rfl]
@[simp] theorem Mgmt.queueEvent_resetPending (m : Mgmt) (t : RingTime) (z : Option ZoneId) (x : Option TrainId)
    (b : EventBody) : (m.queueEvent t z x b).resetPending = m.resetPending := by
  unfold Mgmt.queueEvent; split <;> [rfl; split <;> rfl]
@[simp] theorem Mgmt.queueEvent_frameError (m : Mgmt) (t : RingTime) (z : Option ZoneId) (x : Option TrainId)
    (b : EventBody) : (m.queueEvent t z x b).frameError = m.frameError := by
  unfold Mgmt.queueEvent; split <;> [rfl; split <;> rfl]
@[simp] theorem Mgmt.queueEvent_loadTainted (m : Mgmt) (t : RingTime) (z : Option ZoneId) (x : Option TrainId)
    (b : EventBody) : (m.queueEvent t z x b).loadTainted = m.loadTainted := by
  unfold Mgmt.queueEvent; split <;> [rfl; split <;> rfl]
@[simp] theorem Mgmt.queueEvent_healthAlert (m : Mgmt) (t : RingTime) (z : Option ZoneId) (x : Option TrainId)
    (b : EventBody) : (m.queueEvent t z x b).healthAlert = m.healthAlert := by
  unfold Mgmt.queueEvent; split <;> [rfl; split <;> rfl]
@[simp] theorem Mgmt.queueEvent_reporting (m : Mgmt) (t : RingTime) (z : Option ZoneId) (x : Option TrainId)
    (b : EventBody) : (m.queueEvent t z x b).reporting = m.reporting := by
  unfold Mgmt.queueEvent; split <;> [rfl; split <;> rfl]
@[simp] theorem Mgmt.queueEvent_setting (m : Mgmt) (t : RingTime) (z : Option ZoneId) (x : Option TrainId)
    (b : EventBody) : (m.queueEvent t z x b).setting = m.setting := by
  unfold Mgmt.queueEvent; split <;> [rfl; split <;> rfl]
@[simp] theorem Mgmt.queueEvent_signature (m : Mgmt) (t : RingTime) (z : Option ZoneId) (x : Option TrainId)
    (b : EventBody) : (m.queueEvent t z x b).signature = m.signature := by
  unfold Mgmt.queueEvent; split <;> [rfl; split <;> rfl]
/-- A record never takes the queue past its capacity. -/
theorem Mgmt.queueEvent_length (m : Mgmt) (t : RingTime) (z : Option ZoneId) (x : Option TrainId) (b : EventBody)
    (h : m.events.length ≤ 32) : (m.queueEvent t z x b).events.length ≤ 32 := by
  unfold Mgmt.queueEvent
  split
  · exact h
  · split
    · rename_i h'; simp only [Config.eventCapacity] at h'; simp; omega
    · exact h

end Sys2Proof.Machine
end

