-- ==== Sys2Proof/Laws/Frame.lean ====
section
/-! SUPPORT. The frame of tracking, route setting and filtering: what no operation of these blocks touches.  Everything they
leave alone is one value, `Part.outer`, and each operation has one lemma that says so.  The Mode Controller and the Ring Path
Unit are in it, so a mode or a queue changes only where an operation of those units stands. -/

namespace Sys2Proof.Machine

/-- What tracking, route setting and filtering leave alone. -/
structure Part.Outer where
  lines : Lines
  store : Store
  cls : Classifier
  mc : ModeCtl
  ring : RingPath
  responses : List Response
  precedence : Option Precedence
  resetPending : Bool
  frameError : Bool
  loadTainted : Bool
  reporting : Reporting
  setting : Option Reporting
  signature : Option (BitVec 16)
  cIn : InCounters
  fIn : InCounters
  fOut : FoutCounters
  cOutForwarded : BitVec 32

/-- The outer part of a part. -/
def Part.outer (p : Part) : Part.Outer where
  lines := p.lines
  store := p.store
  cls := p.cls
  mc := p.mc
  ring := p.ring
  responses := p.mgmt.responses
  precedence := p.mgmt.precedence
  resetPending := p.mgmt.resetPending
  frameError := p.mgmt.frameError
  loadTainted := p.mgmt.loadTainted
  reporting := p.mgmt.reporting
  setting := p.mgmt.setting
  signature := p.mgmt.signature
  cIn := p.cnt.cIn
  fIn := p.cnt.fIn
  fOut := p.cnt.fOut
  cOutForwarded := p.cnt.cOutForwarded

/-- Equal outer parts have equal blocks. -/
theorem Part.outer_lines {p q : Part} (h : p.outer = q.outer) : p.lines = q.lines := congrArg Part.Outer.lines h
theorem Part.outer_store {p q : Part} (h : p.outer = q.outer) : p.store = q.store := congrArg Part.Outer.store h
theorem Part.outer_cls {p q : Part} (h : p.outer = q.outer) : p.cls = q.cls := congrArg Part.Outer.cls h
theorem Part.outer_mc {p q : Part} (h : p.outer = q.outer) : p.mc = q.mc := congrArg Part.Outer.mc h
theorem Part.outer_ring {p q : Part} (h : p.outer = q.outer) : p.ring = q.ring := congrArg Part.Outer.ring h
theorem Part.outer_responses {p q : Part} (h : p.outer = q.outer) : p.mgmt.responses = q.mgmt.responses :=
  congrArg Part.Outer.responses h

/-- A fold of steps that leave the outer part alone leaves it alone. -/
theorem Ev.foldl_outer {α : Type} (f : Ev → α → Ev) (h : ∀ e a, (f e a).p.outer = e.p.outer) (l : List α) (e : Ev) :
    (l.foldl f e).p.outer = e.p.outer := by
  induction l generalizing e with
  | nil => rfl
  | cons a l ih => rw [List.foldl_cons, ih, h]

/-- The same of a fold from the right. -/
theorem Ev.foldr_outer {α : Type} (f : α → Ev → Ev) (h : ∀ a e, (f a e).p.outer = e.p.outer) (l : List α) (e : Ev) :
    (l.foldr f e).p.outer = e.p.outer := by
  induction l with
  | nil => rfl
  | cons a l ih => rw [List.foldr_cons, h, ih]

/-- A choice between two events has the outer part of the one chosen. -/
@[simp] theorem Ev.ite_outer (c : Prop) [Decidable c] (a b : Ev) :
    (if c then a else b).p.outer = if c then a.p.outer else b.p.outer := by split <;> rfl

/-! ### Changes of the part -/

@[simp] theorem Part.modZone_outer (p : Part) (z : ZoneId) (f : ZoneDyn → ZoneDyn) : (p.modZone z f).outer = p.outer := rfl
@[simp] theorem Part.modTrain_outer (p : Part) (t : TrainId) (f : TrainRec → TrainRec) : (p.modTrain t f).outer = p.outer := rfl
@[simp] theorem Part.modDevice_outer (p : Part) (z : ZoneId) (f : DeviceRec → DeviceRec) : (p.modDevice z f).outer = p.outer := rfl
@[simp] theorem Part.modSwitch_outer (p : Part) (i : SwitchId) (f : SwitchDyn → SwitchDyn) : (p.modSwitch i f).outer = p.outer := rfl
@[simp] theorem Part.modDeviceHealth_outer (p : Part) (z : ZoneId) (f : DeviceHealth → DeviceHealth) : (p.modDeviceHealth z f).outer = p.outer := rfl
@[simp] theorem Part.modNodeHealth_outer (p : Part) (n : NodeId) (f : NodeHealth → NodeHealth) : (p.modNodeHealth n f).outer = p.outer := rfl
@[simp] theorem Part.modSetter_outer (p : Part) (f : RouteSetter → RouteSetter) : (p.modSetter f).outer = p.outer := rfl
@[simp] theorem Part.modRequest_outer (p : Part) (z : ZoneId) (f : Request → Request) : (p.modRequest z f).outer = p.outer := rfl
@[simp] theorem Part.markReported_outer (p : Part) (z : ZoneId) : (p.markReported z).outer = p.outer := rfl
@[simp] theorem Part.startGap_outer (p : Part) (t : RingTime) : (p.startGap t).outer = p.outer := by
  unfold Part.startGap; dsimp only; split <;> rfl
@[simp] theorem Part.queueEvent_outer (p : Part) (t : RingTime) (z : Option ZoneId) (x : Option TrainId) (b : EventBody) :
    (p.queueEvent t z x b).outer = p.outer := by simp [Part.outer, Part.queueEvent, Part.modMgmt]
@[simp] theorem Part.healthAlert_outer (p : Part) :
    (p.modMgmt (fun m => { m with healthAlert := true })).outer = p.outer := rfl

/-! ### Operations of an event -/

@[simp] theorem Ev.setZone_outer (e : Ev) (z : ZoneId) (st : ZoneState) (occ : Option TrainId) :
    (e.setZone z st occ).p.outer = e.p.outer := by
  simp
@[simp] theorem Ev.setDivert_outer (e : Ev) (t : TrainId) (v : Bool) :
    (e.setDivert t v).p.outer = e.p.outer := by
  simp
@[simp] theorem Ev.testNode_outer (e : Ev) (n : NodeId) (c : BitVec 16) (body : EventBody) :
    (e.testNode n c body).p.outer = e.p.outer := by
  unfold Ev.testNode; split <;> simp
@[simp] theorem Ev.stray_outer (e : Ev) (n : NodeId) :
    (e.stray n).p.outer = e.p.outer := by
  unfold Ev.stray; dsimp only; split <;> simp
@[simp] theorem Ev.edgesLost_outer (e : Ev) (n : NodeId) :
    (e.edgesLost n).p.outer = e.p.outer := by
  unfold Ev.edgesLost; dsimp only; split <;> simp
@[simp] theorem Ev.slowMatch_outer (e : Ev) (z : ZoneId) :
    (e.slowMatch z).p.outer = e.p.outer := by
  unfold Ev.slowMatch; dsimp only; split <;> [rfl; split <;> simp]
@[simp] theorem Ev.queueLate_outer (e : Ev) :
    (e.queueLate).p.outer = e.p.outer := by
  exact Ev.foldl_outer _ (fun e r => by simp) _ _
@[simp] theorem Ev.reserve_outer (e : Ev) (r : ZoneId) (x : TrainId) :
    (e.reserve r x).p.outer = e.p.outer := by
  simp [Ev.reserve]
@[simp] theorem Ev.addFlank_outer (e : Ev) (z : ZoneId) :
    (e.addFlank z).p.outer = e.p.outer := by
  simp [Ev.addFlank]
@[simp] theorem Ev.addHolder_outer (e : Ev) (i : SwitchId) (pos : Branch) :
    (e.addHolder i pos).p.outer = e.p.outer := by
  simp [Ev.addHolder]
@[simp] theorem Ev.releaseReserve_outer (e : Ev) (r : ZoneId) (x : TrainId) :
    (e.releaseReserve r x).p.outer = e.p.outer := by
  unfold Ev.releaseReserve; split <;> simp
@[simp] theorem Ev.dropFlank_outer (e : Ev) (z : ZoneId) :
    (e.dropFlank z).p.outer = e.p.outer := by
  simp [Ev.dropFlank]
@[simp] theorem Ev.dropHolder_outer (e : Ev) (n : NodeId) :
    (e.dropHolder n).p.outer = e.p.outer := by
  unfold Ev.dropHolder; split <;> simp
@[simp] theorem Ev.releaseClaim_outer (x : TrainId) (e : Ev) (c : Claim) : (e.releaseClaim x c).p.outer = e.p.outer := by
  cases c <;> simp [Ev.releaseClaim]
@[simp] theorem Ev.unwind_outer (e : Ev) :
    (e.unwind).p.outer = e.p.outer := by
  unfold Ev.unwind; split <;> simp [Ev.foldl_outer _ (Ev.releaseClaim_outer _)]
@[simp] theorem Ev.releaseRoute_outer (e : Ev) (r : ActiveRoute) :
    (e.releaseRoute r).p.outer = e.p.outer := by
  simp [Ev.releaseRoute, Ev.foldr_outer _ (fun a e => Ev.releaseClaim_outer _ e a)]
@[simp] theorem Ev.removeRoutes_outer (e : Ev) (sel : ActiveRoute → Bool) :
    (e.removeRoutes sel).p.outer = e.p.outer := by
  simp [Ev.removeRoutes, Ev.foldl_outer _ Ev.releaseRoute_outer]
@[simp] theorem Ev.removeRequests_outer (e : Ev) (sel : Request → Bool) :
    (e.removeRequests sel).p.outer = e.p.outer := by
  simp [Ev.removeRequests]
@[simp] theorem Ev.routeFailed_outer (e : Ev) (z : ZoneId) (x : TrainId) (r : RouteFailure) :
    (e.routeFailed z x r).p.outer = e.p.outer := by
  simp [Ev.routeFailed]
@[simp] theorem Ev.abortSetting_outer (e : Ev) :
    (e.abortSetting).p.outer = e.p.outer := by
  unfold Ev.abortSetting; split <;> simp
@[simp] theorem Ev.cancelRoutes_outer (e : Ev) (sel : ActiveRoute → Bool) :
    (e.cancelRoutes sel).p.outer = e.p.outer := by
  unfold Ev.cancelRoutes; rw [Ev.foldl_outer _ (fun e r => by simp)]; simp
@[simp] theorem Ev.unwindFor_outer (e : Ev) (z : ZoneId) :
    (e.unwindFor z).p.outer = e.p.outer := by
  unfold Ev.unwindFor; split <;> simp
@[simp] theorem Ev.fault_outer (e : Ev) (z : ZoneId) (reason : FaultReason) (t : RingTime) :
    (e.fault z reason t).p.outer = e.p.outer := by
  unfold Ev.fault; dsimp only; split <;> simp
@[simp] theorem Ev.enterReleasing_outer (e : Ev) (z : ZoneId) (rec : ZoneRec) (x : TrainId) (t : RingTime) (passing : Bool) :
    (e.enterReleasing z rec x t passing).p.outer = e.p.outer := by
  unfold Ev.enterReleasing; dsimp only; split <;> simp
@[simp] theorem Ev.checkSpeed_outer (e : Ev) (z : ZoneId) (rec : ZoneRec) (x : Option TrainId) (v : BitVec 16) (t : RingTime) :
    (e.checkSpeed z rec x v t).p.outer = e.p.outer := by
  unfold Ev.checkSpeed; split <;> [simp; split <;> simp]
@[simp] theorem Ev.stretchLimit_outer (e : Ev) (z : ZoneId) (rec : ZoneRec) (v : Nat) :
    (e.stretchLimit z rec v).p.outer = e.p.outer := by
  simp [Ev.stretchLimit]
@[simp] theorem Ev.storeSpeed_outer (e : Ev) (z : ZoneId) (v : BitVec 16) (st : TrapState) :
    (e.storeSpeed z v st).p.outer = e.p.outer := by
  unfold Ev.storeSpeed; dsimp only; split <;> simp
@[simp] theorem Ev.expireTrap_outer (e : Ev) (z : ZoneId) (rec : ZoneRec) (t : RingTime) :
    (e.expireTrap z rec t).p.outer = e.p.outer := by
  simp [Ev.expireTrap]
@[simp] theorem Ev.completeTrap_outer (e : Ev) (z : ZoneId) (rec : ZoneRec) (a t : RingTime) :
    (e.completeTrap z rec a t).p.outer = e.p.outer := by
  unfold Ev.completeTrap; dsimp only; split <;> simp
@[simp] theorem Ev.postAuto_outer (e : Ev) (z : ZoneId) (x : TrainId) (t : RingTime) :
    (e.postAuto z x t).p.outer = e.p.outer := by
  simp [Ev.postAuto]
@[simp] theorem Ev.enter_outer (e : Ev) (s : ZoneId) (rec : ZoneRec) (x : TrainId) (z : ZoneId) (t : RingTime) :
    (e.enter s rec x z t).p.outer = e.p.outer := by
  simp [Ev.enter]
@[simp] theorem Ev.edgeTrapA_outer (e : Ev) (s : ZoneId) (rec : ZoneRec) (t : RingTime) :
    (e.edgeTrapA s rec t).p.outer = e.p.outer := by
  unfold Ev.edgeTrapA; split <;> [simp; (split <;> [rfl; rfl; rfl; (split <;> simp); simp; simp; simp; simp])]
@[simp] theorem Ev.edgeTrapB_outer (e : Ev) (n : NodeId) (s : ZoneId) (rec : ZoneRec) (t : RingTime) :
    (e.edgeTrapB n s rec t).p.outer = e.p.outer := by
  unfold Ev.edgeTrapB; split <;> simp
@[simp] theorem Ev.arrive_outer (e : Ev) (s : ZoneId) (rec : ZoneRec) (x : TrainId) (t : RingTime) :
    (e.arrive s rec x t).p.outer = e.p.outer := by
  unfold Ev.arrive; dsimp only; split <;> simp
@[simp] theorem Ev.stopMoving_outer (e : Ev) (s : ZoneId) (rec : ZoneRec) (t : RingTime) :
    (e.stopMoving s rec t).p.outer = e.p.outer := by
  cases hd : (e.p.zone s).deadline <;> cases ho : (e.p.zone s).occupant <;> simp [Ev.stopMoving, hd, ho]
@[simp] theorem Ev.edgeStop_outer (e : Ev) (n : NodeId) (s : ZoneId) (rec : ZoneRec) (t : RingTime) :
    (e.edgeStop n s rec t).p.outer = e.p.outer := by
  unfold Ev.edgeStop; split <;> (try split) <;> simp
@[simp] theorem Ev.clearTail_outer (e : Ev) (z : ZoneId) (x : TrainId) (t : RingTime) :
    (e.clearTail z x t).p.outer = e.p.outer := by
  simp [Ev.clearTail]
@[simp] theorem Ev.edgeClear_outer (e : Ev) (n : NodeId) (z : ZoneId) (t : RingTime) :
    (e.edgeClear n z t).p.outer = e.p.outer := by
  unfold Ev.edgeClear; split <;> (try split) <;> simp
@[simp] theorem Ev.edgeOpen_outer (e : Ev) (s : ZoneId) (rec : ZoneRec) (t : RingTime) :
    (e.edgeOpen s rec t).p.outer = e.p.outer := by
  unfold Ev.edgeOpen; split <;> (try split) <;> simp
@[simp] theorem Ev.edgeClosed_outer (e : Ev) (s : ZoneId) (rec : ZoneRec) (t : RingTime) :
    (e.edgeClosed s rec t).p.outer = e.p.outer := by
  unfold Ev.edgeClosed; split <;> simp
@[simp] theorem Ev.takeEdge_outer (n : NodeId) (e : Ev) (g : Edge) : (e.takeEdge n g).p.outer = e.p.outer := by
  unfold Ev.takeEdge; split <;> [rfl; (dsimp only; split <;> simp)]
@[simp] theorem Ev.faultLost_outer (e : Ev) (n : NodeId) :
    (e.faultLost n).p.outer = e.p.outer := by
  refine Ev.foldl_outer _ (fun e z => ?_) _ _
  split
  · rfl
  · split <;> (try split) <;> simp
@[simp] theorem Ev.serviceTest_outer (e : Ev) (z : ZoneId) (x : TrainId) (t : RingTime) :
    (e.serviceTest z x t).p.outer = e.p.outer := by
  unfold Ev.serviceTest; dsimp only; split <;> simp
@[simp] theorem Ev.recordDispatch_outer (e : Ev) (n : DispatchNote) :
    (e.recordDispatch n).p.outer = e.p.outer := by
  unfold Ev.recordDispatch; split <;> [rfl; (split <;> simp)]
@[simp] theorem Ev.recordDispatches_outer (e : Ev) :
    (e.recordDispatches).p.outer = e.p.outer := by
  exact Ev.foldl_outer _ Ev.recordDispatch_outer _ _
@[simp] theorem Ev.takeRefusal_outer (e : Ev) (z : ZoneId) (rec : ZoneRec) (x : TrainId) (t : RingTime) :
    (e.takeRefusal z rec x t).p.outer = e.p.outer := by
  unfold Ev.takeRefusal; dsimp only; split <;> [simp; (split <;> (try split) <;> simp)]
@[simp] theorem Ev.recordReadyLost_outer (e : Ev) (z : ZoneId) (rec : ZoneRec) (x : TrainId) :
    (e.recordReadyLost z rec x).p.outer = e.p.outer := by
  simp [Ev.recordReadyLost]
@[simp] theorem Ev.testReady_outer (n : NodeId) (e : Ev) (z : ZoneId) : (Ev.testReady n e z).p.outer = e.p.outer := by
  unfold Ev.testReady
  split
  · rfl
  · split
    · split
      · split <;> simp
      · split <;> simp
      · rfl
    · rfl
@[simp] theorem Ev.testAllReady_outer (e : Ev) (n : NodeId) :
    (e.testAllReady n).p.outer = e.p.outer := by
  exact Ev.foldl_outer _ (Ev.testReady_outer n) _ _
@[simp] theorem Ev.postLevel_outer (e : Ev) (z : ZoneId) (rec : ZoneRec) :
    (e.postLevel z rec).p.outer = e.p.outer := by
  unfold Ev.postLevel; split <;> (try split) <;> simp
@[simp] theorem Ev.withdraw_outer (e : Ev) (z : ZoneId) :
    (e.withdraw z).p.outer = e.p.outer := by
  unfold Ev.withdraw; dsimp only; split <;> simp
@[simp] theorem Ev.claimLost_outer (e : Ev) (s : Setting) :
    (e.claimLost s).p.outer = e.p.outer := by
  simp [Ev.claimLost]
@[simp] theorem Ev.switchFault_outer (e : Ev) (s : Setting) (i : SwitchId) (n : NodeId) (r : SwitchFailure) (f : RouteFailure) :
    (e.switchFault s i n r f).p.outer = e.p.outer := by
  simp [Ev.switchFault]
@[simp] theorem Ev.openRoute_outer (e : Ev) (r : ActiveRoute) :
    (e.openRoute r).p.outer = e.p.outer := by
  simp [Ev.openRoute]
@[simp] theorem Ev.releaseIfOpen_outer (e : Ev) (z : ZoneId) (rec : ZoneRec) (x : TrainId) (st : ZoneState) :
    (e.releaseIfOpen z rec x st).p.outer = e.p.outer := by
  unfold Ev.releaseIfOpen; split <;> simp
@[simp] theorem Ev.noteBranch_outer (e : Ev) (z : ZoneId) (rec : ZoneRec) (x : TrainId) (br : Branch) :
    (e.noteBranch z rec x br).p.outer = e.p.outer := by
  unfold Ev.noteBranch; split <;> (try split) <;> simp
@[simp] theorem Ev.completeSetting_outer (e : Ev) (s : Setting) :
    (e.completeSetting s).p.outer = e.p.outer := by
  unfold Ev.completeSetting; split <;> [simp; (split <;> simp)]
@[simp] theorem Ev.push_outer (e : Ev) (c : Claim) :
    (e.push c).p.outer = e.p.outer := by
  simp [Ev.push]
@[simp] theorem Ev.startSwitchTimer_outer (e : Ev) :
    (e.startSwitchTimer).p.outer = e.p.outer := by
  simp [Ev.startSwitchTimer]
@[simp] theorem Ev.runClaims_outer (s : Setting) (cs : List Claim) (e : Ev) :
    (Ev.runClaims s cs e).p.outer = e.p.outer := by
  induction cs generalizing e with
  | nil => simp [Ev.runClaims]
  | cons c cs ih =>
    unfold Ev.runClaims
    split
    · simp
    · split
      · simp [ih]
      · simp [ih]
      · split
        · simp
        · split
          · simp
          · dsimp only; split <;> simp [ih]
@[simp] theorem Ev.startRoute_outer (e : Ev) (q : Request) (br : Branch) :
    (e.startRoute q br).p.outer = e.p.outer := by
  unfold Ev.startRoute; split <;> simp
@[simp] theorem Ev.resumeClaim_outer (e : Ev) (n : NodeId) :
    (e.resumeClaim n).p.outer = e.p.outer := by
  unfold Ev.resumeClaim
  split
  · split
    · split
      · split <;> simp
      · rfl
    · rfl
  · rfl
@[simp] theorem Ev.switchTimeout_outer (e : Ev) :
    (e.switchTimeout).p.outer = e.p.outer := by
  unfold Ev.switchTimeout; split <;> [(split <;> simp); rfl]
@[simp] theorem Ev.examine_outer (n : Nat) (e : Ev) : (e.examine n).p.outer = e.p.outer := by
  induction n generalizing e with
  | zero => rfl
  | succ n ih =>
    unfold Ev.examine
    split
    · split
      · rfl
      · rw [ih]; simp
    · rfl
@[simp] theorem Ev.examineQueue_outer (e : Ev) : e.examineQueue.p.outer = e.p.outer := by simp [Ev.examineQueue]
@[simp] theorem Ev.superviseSwitch_outer (e : Ev) (i : SwitchId) (rec : SwitchRec) :
    (e.superviseSwitch i rec).p.outer = e.p.outer := by
  unfold Ev.superviseSwitch; dsimp only; split <;> [rfl; (split <;> [rfl; (split <;> [simp; (split <;> simp)])])]
@[simp] theorem Ev.superviseLocks_outer (e : Ev) (n : NodeId) :
    (e.superviseLocks n).p.outer = e.p.outer := by
  unfold Ev.superviseLocks; split <;> [rfl; (split <;> simp)]
@[simp] theorem Ev.latchTest_outer (e : Ev) (z : ZoneId) (rec : ZoneRec) :
    (e.latchTest z rec).p.outer = e.p.outer := by
  unfold Ev.latchTest; split <;> simp
@[simp] theorem Ev.setForwarded_outer (e : Ev) (z : ZoneId) (rec : ZoneRec) (v : HoldValue) :
    (e.setForwarded z rec v).p.outer = e.p.outer := by
  unfold Ev.setForwarded; split <;> [rfl; (dsimp only; split <;> [simp; (split <;> simp)])]
@[simp] theorem Ev.superviseDevice_outer (e : Ev) (z : ZoneId) (rec : ZoneRec) :
    (e.superviseDevice z rec).p.outer = e.p.outer := by
  cases hs : (e.p.device z).sup <;> cases hf : (e.p.device z).forwarded <;> cases hc : (e.p.device z).changeTime <;>
    simp [Ev.superviseDevice, hs, hf, hc]
@[simp] theorem Ev.superviseDevices_outer (e : Ev) (n : NodeId) :
    (e.superviseDevices n).p.outer = e.p.outer := by
  refine Ev.foldl_outer _ (fun e z => ?_) _ _
  split <;> (try split) <;> simp
@[simp] theorem Ev.takeSupervision_outer (e : Ev) (z : ZoneId) (rec : ZoneRec) (t : RingTime) :
    (e.takeSupervision z rec t).p.outer = e.p.outer := by
  simp [Ev.takeSupervision]
@[simp] theorem Ev.takeAsSent_outer (e : Ev) (z : ZoneId) (rec : ZoneRec) (v : HoldValue) :
    (e.takeAsSent z rec v).p.outer = e.p.outer := by
  unfold Ev.takeAsSent; dsimp only; split <;> simp
@[simp] theorem Ev.countOverride_outer (e : Ev) (z : ZoneId) :
    (e.countOverride z).p.outer = e.p.outer := by
  simp [Ev.countOverride]
@[simp] theorem Ev.controllerHold_outer (e : Ev) :
    (e.controllerHold).p.outer = e.p.outer := by
  refine Ev.foldl_outer _ (fun e z => ?_) _ _
  split <;> simp
@[simp] theorem Ev.broadcastHeld_outer (e : Ev) :
    (e.broadcastHeld).p.outer = e.p.outer := by
  refine Ev.foldl_outer _ (fun e z => ?_) _ _
  split <;> simp
@[simp] theorem Ev.holdAllPermits_outer (e : Ev) :
    (e.holdAllPermits).p.outer = e.p.outer := by
  exact Ev.foldl_outer _ (fun e z => by simp) _ _
@[simp] theorem Ev.reconcileRoutes_outer (e : Ev) (z : ZoneId) :
    (e.reconcileRoutes z).p.outer = e.p.outer := by
  unfold Ev.reconcileRoutes; dsimp only; split <;> simp
@[simp] theorem Ev.forgetTrain_outer (e : Ev) (z : ZoneId) (x : TrainId) :
    (e.forgetTrain z x).p.outer = e.p.outer := by
  refine Ev.foldl_outer _ (fun e w => ?_) _ _
  split <;> simp
@[simp] theorem Ev.place_outer (e : Ev) (z : ZoneId) (x : TrainId) :
    (e.place z x).p.outer = e.p.outer := by
  simp [Ev.place]
@[simp] theorem Ev.freeZone_outer (e : Ev) (z : ZoneId) :
    (e.freeZone z).p.outer = e.p.outer := by
  simp [Ev.freeZone]
@[simp] theorem Ev.remove_outer (e : Ev) (z : ZoneId) (x : TrainId) :
    (e.remove z x).p.outer = e.p.outer := by
  simp [Ev.remove]
@[simp] theorem Ev.clear_outer (e : Ev) (z : ZoneId) :
    (e.clear z).p.outer = e.p.outer := by
  unfold Ev.clear; dsimp only; split <;> simp
@[simp] theorem Ev.override_outer (e : Ev) (z : ZoneId) (rec : ZoneRec) (x : TrainId) (br : Branch) (s : ZoneId) :
    (e.override z rec x br s).p.outer = e.p.outer := by
  simp [Ev.override]
@[simp] theorem Ev.overrideClears_outer (e : Ev) (z : ZoneId) :
    (e.overrideClears z).p.outer = e.p.outer := by
  unfold Ev.overrideClears; dsimp only; split <;> simp

/-! ### The end of an event -/

/-- The examination and the late records leave the outer part alone. -/
@[simp] theorem Ev.close_outer (e : Ev) : e.close.outer = e.p.outer := by simp [Ev.close]

/-- A report's edges leave the outer part alone. -/
@[simp] theorem Ev.takeEdges_outer (n : NodeId) (e : Ev) (gs : List Edge) :
    (gs.foldl (Ev.takeEdge n) e).p.outer = e.p.outer := Ev.foldl_outer _ (Ev.takeEdge_outer n) _ _

end Sys2Proof.Machine
end

