-- ==== Sys2Proof/Laws/Release.lean ====
section
/-! SUPPORT. A release of claims (R39, R77, R82, R83), said once: what it makes of the zones, trains and switches, for one
claim, for the stack of a setting, and for the routes that leave the table. -/

namespace Sys2Proof.Machine

/-! ### Releases one after the other -/

theorem Part.holdsOn_store {p q : Part} (h : q.store = p.store) (gone : List (TrainId × Claim)) (i : SwitchId) :
    q.holdsOn gone i = p.holdsOn gone i := by
  unfold Part.holdsOn Part.switchOf; rw [h]

theorem Part.holdsOn_append (p : Part) (g k : List (TrainId × Claim)) (i : SwitchId) :
    p.holdsOn (g ++ k) i = p.holdsOn g i + p.holdsOn k i := List.countP_append

theorem flanksOn_append (g k : List (TrainId × Claim)) (w : ZoneId) : flanksOn (g ++ k) w = flanksOn g w + flanksOn k w :=
  List.countP_append

theorem Part.freedBy_append (p : Part) (g k : List (TrainId × Claim)) (w : ZoneId) :
    p.freedBy (g ++ k) w = (p.freedBy g w || p.freedBy k w) := by
  simp only [Part.freedBy, List.any_append, Bool.and_or_distrib_left]

/-- What is freed depends on the zone's state and occupant alone. -/
theorem Part.freedBy_congr {p q : Part} {w : ZoneId} (hs : (q.zone w).state = (p.zone w).state)
    (ho : (q.zone w).occupant = (p.zone w).occupant) (g : List (TrainId × Claim)) : q.freedBy g w = p.freedBy g w := by
  simp only [Part.freedBy, hs, ho]

/-- Where every zone, train and switch stands, nothing has been released. -/
theorem Part.ClaimsFreed.of_same {p q : Part} (hz : ∀ w, q.zone w = p.zone w) (ht : ∀ x, q.train x = p.train x)
    (hs : ∀ i, q.switch i = p.switch i) : p.ClaimsFreed q [] where
  zones w := by simp [Part.freedBy, flanksOn, hz w]
  trains x := by simp [Part.freedBy, ht x]
  switches i := by simp [Part.holdsOn, hs i]

/-- Where the tracking blocks and the switches stand, nothing has been released. -/
theorem Part.ClaimsFreed.of_eq {p q : Part} (ht : q.trk = p.trk) (hs : q.rs.switches = p.rs.switches) :
    p.ClaimsFreed q [] :=
  .of_same (fun w => by simp only [Part.zone, ht]) (fun x => by simp only [Part.train, ht])
    (fun i => by simp only [Part.switch, hs])

theorem Part.ClaimsFreed.refl (p : Part) : p.ClaimsFreed p [] := .of_eq rfl rfl

/-- A zone that a release has freed is FREE, and no later release frees it again. -/
theorem Part.ClaimsFreed.freed {p q : Part} {g : List (TrainId × Claim)} (h : p.ClaimsFreed q g) (k : List (TrainId × Claim))
    (w : ZoneId) : q.freedBy k w = (!p.freedBy g w && p.freedBy k w) := by
  by_cases hf : p.freedBy g w = true
  · have hz : (q.zone w).state = .free := by rw [h.zones w, if_pos hf]
    rw [hf, show q.freedBy k w = false by unfold Part.freedBy; rw [hz]; rfl]
    rfl
  · have hz := h.zones w
    rw [if_neg hf] at hz
    rw [Part.freedBy_congr (p := p) (by rw [hz]) (by rw [hz])]
    simp [hf]

/-- One release after another is the release of both. -/
theorem Part.ClaimsFreed.trans {p q r : Part} {g k : List (TrainId × Claim)} (h : p.ClaimsFreed q g)
    (h' : q.ClaimsFreed r k) (hst : q.store = p.store) : p.ClaimsFreed r (g ++ k) where
  zones w := by
    have hq := h.zones w
    rw [h'.zones w, h.freed, Part.freedBy_append, flanksOn_append, Nat.sub_add_eq]
    by_cases hg : p.freedBy g w = true
    · rw [if_pos hg] at hq; simp only [hg, hq, Bool.not_true, Bool.false_and, Bool.true_or, if_true, Bool.false_eq_true,
        if_false]
    · rw [if_neg hg] at hq; simp only [Bool.not_eq_true] at hg
      by_cases hk : p.freedBy k w = true
      · simp only [hg, hk, hq, Bool.not_false, Bool.and_self, Bool.or_true, if_true]
      · simp only [Bool.not_eq_true] at hk
        simp only [hg, hk, hq, Bool.not_false, Bool.and_false, Bool.or_self, Bool.false_eq_true, if_false]
  trains x := by
    have hocc : ∀ w, (q.freedBy k w && (q.zone w).occupant == some x) =
        (!p.freedBy g w && (p.freedBy k w && (p.zone w).occupant == some x)) := by
      intro w
      rw [h.freed]
      by_cases hg : p.freedBy g w = true
      · simp [hg]
      · have hz := h.zones w
        rw [if_neg hg] at hz
        have ho : (q.zone w).occupant = (p.zone w).occupant := by rw [hz]
        rw [ho, Bool.and_assoc]
    have hany : allZones.any (fun w => p.freedBy (g ++ k) w && (p.zone w).occupant == some x) =
        (allZones.any (fun w => p.freedBy g w && (p.zone w).occupant == some x) ||
          allZones.any (fun w => q.freedBy k w && (q.zone w).occupant == some x)) := by
      rw [Bool.eq_iff_iff]
      simp only [Bool.or_eq_true, List.any_eq_true, hocc, Part.freedBy_append]
      constructor
      · rintro ⟨w, hw, hx⟩
        by_cases hg : p.freedBy g w = true
        · left; exact ⟨w, hw, by simpa [hg] using hx⟩
        · right; exact ⟨w, hw, by simpa [hg] using hx⟩
      · rintro (⟨w, hw, hx⟩ | ⟨w, hw, hx⟩)
        · exact ⟨w, hw, by revert hx; cases p.freedBy g w <;> simp⟩
        · exact ⟨w, hw, by revert hx; cases p.freedBy g w <;> simp⟩
    rw [h'.trains x, h.trains x, hany]
    cases allZones.any (fun w => p.freedBy g w && (p.zone w).occupant == some x) <;>
      cases allZones.any (fun w => q.freedBy k w && (q.zone w).occupant == some x) <;> rfl
  switches i := by
    rw [h'.switches i, h.switches i, Part.holdsOn_store hst, Part.holdsOn_append, Nat.sub_add_eq]
    simp only [SwitchDyn.mk.injEq, true_and]
    generalize p.holdsOn g i = a
    generalize p.holdsOn k i = b
    generalize (p.switch i).holders = n
    cases (p.switch i).lockLost
    · rfl
    · rw [Bool.eq_iff_iff]
      simp only [Bool.true_and, Bool.and_eq_true, Bool.or_eq_true, beq_iff_eq, decide_eq_true_eq]
      omega

/-- The order of the claims released does not matter. -/
theorem Part.ClaimsFreed.perm {p q : Part} {g k : List (TrainId × Claim)} (h : p.ClaimsFreed q g) (hp : g.Perm k) :
    p.ClaimsFreed q k := by
  have hf : ∀ w, p.freedBy k w = p.freedBy g w := fun w => by
    unfold Part.freedBy; rw [hp.any_eq]
  have hl : ∀ w, flanksOn k w = flanksOn g w := fun w => (hp.countP_eq _).symm
  have hh : ∀ i, p.holdsOn k i = p.holdsOn g i := fun i => (hp.countP_eq _).symm
  refine ⟨fun w => ?_, fun x => ?_, fun i => ?_⟩
  · rw [hf, hl]; exact h.zones w
  · rw [h.trains x]; simp only [hf]
  · rw [hh]; exact h.switches i

/-- A change of neither zones, trains nor switches before a release. -/
theorem Part.ClaimsFreed.after {p q r : Part} {g : List (TrainId × Claim)} (ht : q.trk = p.trk)
    (hs : q.rs.switches = p.rs.switches) (hst : q.store = p.store) (h : q.ClaimsFreed r g) : p.ClaimsFreed r g :=
  (Part.ClaimsFreed.of_eq ht hs).trans h hst

/-- A change of neither zones, trains nor switches after a release. -/
theorem Part.ClaimsFreed.before {p q r : Part} {g : List (TrainId × Claim)} (h : p.ClaimsFreed q g) (ht : r.trk = q.trk)
    (hs : r.rs.switches = q.rs.switches) (hst : q.store = p.store) : p.ClaimsFreed r g := by
  have := h.trans (Part.ClaimsFreed.of_eq ht hs) hst
  rwa [List.append_nil] at this

/-- A change of a train's state before a release is one after it. -/
theorem Part.ClaimsFreed.withState {p q : Part} {g : List (TrainId × Claim)} (h : p.ClaimsFreed q g) (x : TrainId)
    (st : TrainState) :
    (p.modTrain x (fun r => { r with state := st })).ClaimsFreed (q.modTrain x (fun r => { r with state := st })) g where
  zones := h.zones
  trains y := by
    have hy := h.trains y
    simp only [Part.modTrain_train]
    by_cases hx : y = x
    · subst hx; rw [if_pos rfl, if_pos rfl, hy]; rfl
    · rw [if_neg hx, if_neg hx]; exact hy
  switches := h.switches

/-- Releases in a fold. -/
theorem Part.ClaimsFreed.foldl {α : Type} (f : Ev → α → Ev) (c : α → List (TrainId × Claim))
    (h : ∀ (e : Ev) (a : α), e.p.ClaimsFreed (f e a).p (c a)) (hst : ∀ e a, (f e a).p.store = e.p.store) (l : List α) (e : Ev) :
    e.p.ClaimsFreed (l.foldl f e).p (l.flatMap c) := by
  induction l generalizing e with
  | nil => exact .refl _
  | cons a l ih =>
    rw [List.foldl_cons, List.flatMap_cons]
    exact (h e a).trans (ih _) (hst e a)

/-! ### One claim -/

/-- The release of a RESERVE (R39). -/
theorem Ev.releaseReserve_freed (e : Ev) (r : ZoneId) (x : TrainId) :
    e.p.ClaimsFreed (e.releaseReserve r x).p [(x, .reserve r)] := by
  have hone : ∀ w, e.p.freedBy [(x, .reserve r)] w =
      decide (w = r ∧ (e.p.zone r).state = .reserved ∧ (e.p.zone r).occupant = some x) := by
    intro w
    rw [Bool.eq_iff_iff]
    simp only [Part.freedBy, List.any_cons, List.any_nil, Bool.or_false, Bool.and_eq_true, beq_iff_eq, Claim.reserve.injEq,
      decide_eq_true_eq]
    constructor
    · rintro ⟨h1, h2, h3⟩; subst h2; exact ⟨rfl, h1, h3⟩
    · rintro ⟨h1, h2, h3⟩; subst h1; exact ⟨h2, rfl, h3⟩
  unfold Ev.releaseReserve
  split
  · rename_i hr
    refine ⟨fun w => ?_, fun y => ?_, fun i => ?_⟩
    · simp only [hone, hr, and_self, and_true, decide_eq_true_eq, flanksOn, List.countP_cons, List.countP_nil]
      simp only [Ev.modTrain_p, Ev.modZone_p, Ev.setZone_p, Part.modTrain_zone, Part.modZone_zone]
      by_cases hw : w = r
      · subst hw
        simp [ZoneDyn.cleared, ZoneDyn.reset, hr.1]
      · simp [hw]
    · have hany : allZones.any (fun w => e.p.freedBy [(x, .reserve r)] w && (e.p.zone w).occupant == some y) =
          decide (y = x) := by
        rw [Bool.eq_iff_iff]
        simp only [List.any_eq_true, hone, hr, and_self, and_true, Bool.and_eq_true, decide_eq_true_eq, beq_iff_eq]
        constructor
        · rintro ⟨w, _, h1, h2⟩; subst h1; rw [hr.2] at h2; exact (Option.some.inj h2).symm
        · rintro rfl; exact ⟨r, List.mem_finRange r, rfl, hr.2⟩
      rw [hany]
      simp only [Ev.modTrain_p, Ev.modZone_p, Ev.setZone_p, Part.modTrain_train, Part.modZone_train, decide_eq_true_eq]
      by_cases hy : y = x
      · subst hy; simp
      · simp [hy]
    · simp [Part.holdsOn, Part.switch]
  · rename_i hr
    have hno : ∀ w, e.p.freedBy [(x, .reserve r)] w = false := fun w => by
      rw [hone w]; exact decide_eq_false (fun h => hr h.2)
    refine ⟨fun w => ?_, fun y => ?_, fun i => ?_⟩
    · simp [hno, flanksOn]
    · simp [hno]
    · simp [Part.holdsOn]

theorem Ev.dropFlank_freed (e : Ev) (z : ZoneId) (x : TrainId) : e.p.ClaimsFreed (e.dropFlank z).p [(x, .flank z)] where
  zones w := by
    simp only [Part.freedBy, flanksOn, Ev.dropFlank, Ev.woken_p, Ev.modZone_p, Part.modZone_zone]
    by_cases hw : w = z
    · subst hw; simp
    · simp [hw, Ne.symm hw]
  trains y := by simp [Part.freedBy, Ev.dropFlank]
  switches i := by simp [Part.holdsOn, Part.switch, Ev.dropFlank]

theorem Ev.dropHolder_freed (e : Ev) (n : NodeId) (pos : Branch) (x : TrainId) :
    e.p.ClaimsFreed (e.dropHolder n).p [(x, .switch n pos)] := by
  unfold Ev.dropHolder
  split
  · rename_i hn
    refine ⟨fun w => ?_, fun y => ?_, fun i => ?_⟩
    · simp [Part.freedBy, flanksOn]
    · simp [Part.freedBy]
    · simp [Part.holdsOn, hn]
  · rename_i j hj
    refine ⟨fun w => ?_, fun y => ?_, fun i => ?_⟩
    · simp [Part.freedBy, flanksOn]
    · simp [Part.freedBy]
    · simp only [Part.holdsOn, List.countP_cons, List.countP_nil, hj, Ev.woken_p, Ev.mod, Part.modSwitch_switch]
      by_cases hi : i = j
      · subst hi; simp
      · have : (some j == some i) = false := by simpa using fun h => hi h.symm
        simp [hi, this]

/-- The release of one claim (R77). -/
theorem Ev.releaseClaim_freed (x : TrainId) (e : Ev) (c : Claim) : e.p.ClaimsFreed (e.releaseClaim x c).p [(x, c)] := by
  cases c with
  | reserve r => exact e.releaseReserve_freed r x
  | flank z => exact e.dropFlank_freed z x
  | switch n pos => exact e.dropHolder_freed n pos x

theorem Ev.releaseClaims_freed (x : TrainId) (l : List Claim) (e : Ev) :
    e.p.ClaimsFreed (l.foldl (Ev.releaseClaim x) e).p (l.map (fun c => (x, c))) := by
  have h := Part.ClaimsFreed.foldl (Ev.releaseClaim x) (fun c => [(x, c)]) (Ev.releaseClaim_freed x)
    (fun e c => Part.outer_store (Ev.releaseClaim_outer x e c)) l e
  rwa [← List.map_eq_flatMap] at h

/-! ### Unwinding and the removal of routes -/

/-- Unwinding releases the claims of the setting (R77). -/
theorem Ev.unwind_freed (e : Ev) : e.p.ClaimsFreed e.unwind.p e.p.stacked := by
  unfold Ev.unwind Part.stacked
  cases h : e.p.rs.setting with
  | none => exact .refl _
  | some s =>
    exact (Ev.releaseClaims_freed s.train e.p.rs.stack e).before rfl rfl
      (Part.outer_store (Ev.foldl_outer _ (Ev.releaseClaim_outer s.train) _ _))

/-- The release of a route releases its claims (R82, R83). -/
theorem Ev.releaseRoute_freed (e : Ev) (r : ActiveRoute) : e.p.ClaimsFreed (e.releaseRoute r).p r.claims := by
  have hs := Part.outer_store (Ev.foldl_outer _ (Ev.releaseClaim_outer r.train) r.locks.reverse e)
  have h := (Ev.releaseClaims_freed r.train r.locks.reverse e).trans
    (Ev.releaseReserve_freed (r.locks.reverse.foldl (Ev.releaseClaim r.train) e) r.succ r.train) hs
  refine (h.before (r := (e.releaseRoute r).p) rfl rfl ?_).perm ?_
  · exact (Part.outer_store (Ev.releaseReserve_outer _ _ _)).trans hs
  · refine List.perm_append_comm.trans ?_
    exact List.Perm.cons _ (List.Perm.map _ (List.reverse_perm _))

/-- The removal of routes releases their claims (R82, R83). -/
theorem Ev.removeRoutes_freed (e : Ev) (sel : ActiveRoute → Bool) :
    e.p.ClaimsFreed (e.removeRoutes sel).p ((e.p.rs.routes.filter sel).flatMap ActiveRoute.claims) := by
  unfold Ev.removeRoutes
  generalize e.p.rs.routes.filter sel = l
  refine Part.ClaimsFreed.after (q := (e.mod _).p) rfl rfl rfl
    (Part.ClaimsFreed.foldl Ev.releaseRoute ActiveRoute.claims Ev.releaseRoute_freed
      (fun e r => Part.outer_store (Ev.releaseRoute_outer e r)) l _)

/-- The claims of routes picked in two turns are those of the routes that either turn picks. -/
theorem claims_twice_perm (l : List ActiveRoute) (f g : ActiveRoute → Bool) :
    ((l.filter f).flatMap ActiveRoute.claims ++ ((l.filter (fun r => !f r)).filter g).flatMap ActiveRoute.claims).Perm
      ((l.filter (fun r => f r || g r)).flatMap ActiveRoute.claims) := by
  rw [← List.flatMap_append]
  refine List.Perm.flatMap_right _ ?_
  have h := List.filter_append_perm f (l.filter (fun r => f r || g r))
  rw [List.filter_filter, List.filter_filter] at h
  rw [List.filter_filter]
  convert h using 3
  · funext r; cases f r <;> simp
  · funext r; cases f r <;> simp

end Sys2Proof.Machine
end

