-- ==== Sys2Proof/Laws/Raise.lean ====
section
/-! SUPPORT. A raised cause (R131), said once: what the release of claims touches, what one raise makes of the part, and how
an event ends that has nothing waiting. -/

namespace Sys2Proof.Machine

/-- A fold of steps that keep a quantity keeps it. -/
theorem Ev.foldl_keeps {α β : Type} (g : Part → β) (f : Ev → α → Ev) (h : ∀ e a, g (f e a).p = g e.p) (l : List α)
    (e : Ev) : g (l.foldl f e).p = g e.p := by
  induction l generalizing e with
  | nil => rfl
  | cons a l ih => rw [List.foldl_cons, ih, h]

/-- A fold of steps that keep a field of the event keeps it. -/
theorem Ev.foldl_keepsEv {α β : Type} (g : Ev → β) (f : Ev → α → Ev) (h : ∀ e a, g (f e a) = g e) (l : List α)
    (e : Ev) : g (l.foldl f e) = g e := by
  induction l generalizing e with
  | nil => rfl
  | cons a l ih => rw [List.foldl_cons, ih, h]

/-! ### What the release of claims touches -/

theorem Part.TrackKept.refl (p : Part) : p.TrackKept p := ⟨fun _ _ => rfl, fun _ => rfl⟩

theorem Part.TrackKept.trans {p q r : Part} (h : p.TrackKept q) (k : q.TrackKept r) : p.TrackKept r where
  zones z hz := by
    have h1 := h.zones z hz
    have hq : (q.zone z).state ≠ .reserved := by rw [← h1] at hz; exact hz
    rw [← k.zones z hq] at h1
    exact h1
  trains x := by
    have h1 := h.trains x
    rw [← k.trains x] at h1
    exact h1

/-- The zones and trains are what the tracking blocks hold: an operation that changes neither keeps them. -/
theorem Part.TrackKept.of_trk {p q : Part} (h : q.trk = p.trk) : p.TrackKept q where
  zones z _ := by simp only [Part.zone, h]
  trains x := by simp only [Part.train, h]

theorem Part.TrackKept.foldl {α : Type} (f : Ev → α → Ev) (h : ∀ (e : Ev) (a : α), e.p.TrackKept (f e a).p) (l : List α) (e : Ev) :
    e.p.TrackKept (l.foldl f e).p := by
  induction l generalizing e with
  | nil => exact .refl _
  | cons a l ih => exact (h e a).trans (ih _)

/-- The release of a RESERVE takes a RESERVED zone back to FREE and ends its train's reservation, and no more (R39). -/
theorem Ev.releaseReserve_track (e : Ev) (r : ZoneId) (x : TrainId) : e.p.TrackKept (e.releaseReserve r x).p := by
  unfold Ev.releaseReserve
  split
  · rename_i hr
    refine ⟨fun z hz => ?_, fun y => ?_⟩
    · have : z ≠ r := fun h => hz (h ▸ hr.1)
      simp [Part.modZone_zone, this]
    · simp only [Ev.modTrain_p, Ev.modZone_p, Ev.setZone_p, Part.modTrain_train, Part.modZone_train]
      split
      · subst_vars; rfl
      · rfl
  · exact .refl _

theorem Ev.dropFlank_track (e : Ev) (z : ZoneId) : e.p.TrackKept (e.dropFlank z).p where
  zones w hw := by
    simp only [Ev.dropFlank, Ev.woken_p, Ev.modZone_p, Part.modZone_zone]
    split
    · subst_vars; rfl
    · rfl
  trains x := rfl

theorem Ev.dropHolder_track (e : Ev) (n : NodeId) : e.p.TrackKept (e.dropHolder n).p := by
  apply Part.TrackKept.of_trk
  unfold Ev.dropHolder; split <;> rfl

theorem Ev.releaseClaim_track (x : TrainId) (e : Ev) (c : Claim) : e.p.TrackKept (e.releaseClaim x c).p := by
  cases c with
  | reserve r => exact e.releaseReserve_track r x
  | flank z => exact e.dropFlank_track z
  | switch n pos => exact e.dropHolder_track n

/-- What a release of claims keeps beside: the event queue, the devices, the Dispatch Unit, the counts, and of the Route
Setter all but the switches. -/
structure Part.ClaimOuter where
  mgmt : Mgmt
  devices : Vector DeviceRec 32
  dsp : Dispatch
  cnt : Counters
  setting : Option Setting
  requests : List Request
  stack : List Claim
  routes : List ActiveRoute
  timer : Option RingTime

/-- The part as a release of claims keeps it. -/
def Part.claimOuter (p : Part) : Part.ClaimOuter where
  mgmt := p.mgmt
  devices := p.devices
  dsp := p.dsp
  cnt := p.cnt
  setting := p.rs.setting
  requests := p.rs.requests
  stack := p.rs.stack
  routes := p.rs.routes
  timer := p.rs.timer

theorem Ev.releaseReserve_claimOuter (e : Ev) (r : ZoneId) (x : TrainId) :
    (e.releaseReserve r x).p.claimOuter = e.p.claimOuter := by
  unfold Ev.releaseReserve; split
  · simp [Part.claimOuter]
  · rfl

theorem Ev.releaseClaim_claimOuter (x : TrainId) (e : Ev) (c : Claim) :
    (e.releaseClaim x c).p.claimOuter = e.p.claimOuter := by
  cases c with
  | reserve r => exact e.releaseReserve_claimOuter r x
  | flank z => rfl
  | switch n pos => simp only [Ev.releaseClaim]; unfold Ev.dropHolder; split <;> rfl

/-- What an event still has to do is not touched by a release of claims. -/
theorem Ev.releaseReserve_late (e : Ev) (r : ZoneId) (x : TrainId) : (e.releaseReserve r x).late = e.late := by
  unfold Ev.releaseReserve; split <;> simp

theorem Ev.releaseClaim_late (x : TrainId) (e : Ev) (c : Claim) : (e.releaseClaim x c).late = e.late := by
  cases c with
  | reserve r => exact e.releaseReserve_late r x
  | flank z => rfl
  | switch n pos => simp only [Ev.releaseClaim]; unfold Ev.dropHolder; split <;> rfl

/-! ### Unwinding and the removal of routes -/

/-- Unwinding leaves the Route Setter IDLE (R77). -/
theorem Ev.unwind_setting (e : Ev) : e.unwind.p.rs.setting = none := by
  unfold Ev.unwind; split
  · assumption
  · rfl

/-- Unwinding touches RESERVED zones, flank counts, reservations, switches, and its own stack and timer (R77). -/
theorem Ev.unwind_track (e : Ev) : e.p.TrackKept e.unwind.p := by
  unfold Ev.unwind; split
  · exact .refl _
  · rename_i s _
    exact (Part.TrackKept.foldl _ (Ev.releaseClaim_track s.train) _ _).trans (.of_trk rfl)

theorem Ev.unwind_keeps (e : Ev) :
    e.unwind.p.mgmt = e.p.mgmt ∧ e.unwind.p.devices = e.p.devices ∧ e.unwind.p.dsp = e.p.dsp ∧
      e.unwind.p.cnt = e.p.cnt ∧ e.unwind.p.rs.requests = e.p.rs.requests ∧
      e.unwind.p.rs.routes = e.p.rs.routes ∧ e.unwind.late = e.late := by
  unfold Ev.unwind; split
  · simp
  · rename_i s _
    have h := Ev.foldl_keeps Part.claimOuter _ (Ev.releaseClaim_claimOuter s.train) e.p.rs.stack e
    exact ⟨congrArg Part.ClaimOuter.mgmt h, congrArg Part.ClaimOuter.devices h, congrArg Part.ClaimOuter.dsp h,
      congrArg Part.ClaimOuter.cnt h, congrArg Part.ClaimOuter.requests h, congrArg Part.ClaimOuter.routes h,
      Ev.foldl_keepsEv Ev.late _ (Ev.releaseClaim_late s.train) _ _⟩

/-- The release of a route touches RESERVED zones, flank counts, reservations, switches and one permit (R82, R83). -/
theorem Ev.releaseRoute_track (e : Ev) (r : ActiveRoute) : e.p.TrackKept (e.releaseRoute r).p :=
  ((Part.TrackKept.foldl _ (Ev.releaseClaim_track r.train) _ _).trans (Ev.releaseReserve_track _ _ _)).trans
    (.of_trk rfl)

/-- What the release of a route keeps of the devices is all but one permit. -/
theorem Ev.releaseRoute_keeps (e : Ev) (r : ActiveRoute) :
    (e.releaseRoute r).p.mgmt = e.p.mgmt ∧ (e.releaseRoute r).p.dsp = e.p.dsp ∧ (e.releaseRoute r).p.cnt = e.p.cnt ∧
      (e.releaseRoute r).p.rs.setting = e.p.rs.setting ∧ (e.releaseRoute r).p.rs.requests = e.p.rs.requests ∧
      (e.releaseRoute r).p.rs.routes = e.p.rs.routes ∧ (e.releaseRoute r).late = e.late ∧
      ∀ w, (e.releaseRoute r).p.device w =
        if w = r.zone then { e.p.device w with permit := .hold } else e.p.device w := by
  have h := (Ev.releaseReserve_claimOuter (r.locks.reverse.foldl (Ev.releaseClaim r.train) e) r.succ r.train).trans
    (Ev.foldl_keeps Part.claimOuter _ (Ev.releaseClaim_claimOuter r.train) r.locks.reverse e)
  refine ⟨congrArg Part.ClaimOuter.mgmt h, congrArg Part.ClaimOuter.dsp h,
    congrArg Part.ClaimOuter.cnt h, congrArg Part.ClaimOuter.setting h, congrArg Part.ClaimOuter.requests h,
    congrArg Part.ClaimOuter.routes h, ?_, fun w => ?_⟩
  · exact (Ev.releaseReserve_late _ _ _).trans (Ev.foldl_keepsEv Ev.late _ (Ev.releaseClaim_late r.train) _ _)
  · have hd := congrArg Part.ClaimOuter.devices h
    simp only [Part.claimOuter] at hd
    simp only [Ev.releaseRoute, Ev.setPermit_p, Part.modDevice_device]
    split
    · subst_vars; simp only [Part.device, hd]
    · simp only [Part.device, hd]

/-- The removal of routes leaves the setting and its stack alone. -/
theorem Ev.removeRoutes_claimStack (e : Ev) (sel : ActiveRoute → Bool) :
    (e.removeRoutes sel).p.rs.setting = e.p.rs.setting ∧ (e.removeRoutes sel).p.rs.stack = e.p.rs.stack := by
  have hroute : ∀ (e : Ev) (r : ActiveRoute), (e.releaseRoute r).p.rs.stack = e.p.rs.stack := fun e r =>
    congrArg Part.ClaimOuter.stack
      ((Ev.releaseReserve_claimOuter (r.locks.reverse.foldl (Ev.releaseClaim r.train) e) r.succ r.train).trans
        (Ev.foldl_keeps Part.claimOuter _ (Ev.releaseClaim_claimOuter r.train) r.locks.reverse e))
  unfold Ev.removeRoutes
  exact ⟨Ev.foldl_keeps (fun p => p.rs.setting) _ (fun e r => (e.releaseRoute_keeps r).2.2.2.1) _ _,
    Ev.foldl_keeps (fun p => p.rs.stack) _ hroute _ _⟩

/-- The removal of routes: those picked leave the table, and only their claims and permits are touched (R82, R83). -/
theorem Ev.removeRoutes_spec (e : Ev) (sel : ActiveRoute → Bool) :
    e.p.TrackKept (e.removeRoutes sel).p ∧ (e.removeRoutes sel).p.mgmt = e.p.mgmt ∧
      (e.removeRoutes sel).p.dsp = e.p.dsp ∧ (e.removeRoutes sel).p.cnt = e.p.cnt ∧
      (e.removeRoutes sel).p.rs.setting = e.p.rs.setting ∧
      (e.removeRoutes sel).p.rs.requests = e.p.rs.requests ∧
      (e.removeRoutes sel).p.rs.routes = e.p.rs.routes.filter (fun r => !sel r) ∧
      (e.removeRoutes sel).late = e.late ∧
      ∀ w, (e.removeRoutes sel).p.device w = e.p.device w ∨
        (e.removeRoutes sel).p.device w = { e.p.device w with permit := .hold } := by
  unfold Ev.removeRoutes
  generalize e.p.rs.routes.filter sel = l
  set e₀ := e.mod (fun p => p.modSetter (fun s => { s with routes := s.routes.filter (fun r => !sel r) })) with he₀
  refine ⟨(Part.TrackKept.of_trk (p := e.p) (q := e₀.p) rfl).trans (Part.TrackKept.foldl _ Ev.releaseRoute_track l e₀),
    Ev.foldl_keeps Part.mgmt _ (fun e r => (e.releaseRoute_keeps r).1) l e₀,
    Ev.foldl_keeps Part.dsp _ (fun e r => (e.releaseRoute_keeps r).2.1) l e₀,
    Ev.foldl_keeps Part.cnt _ (fun e r => (e.releaseRoute_keeps r).2.2.1) l e₀,
    Ev.foldl_keeps (fun p => p.rs.setting) _ (fun e r => (e.releaseRoute_keeps r).2.2.2.1) l e₀,
    Ev.foldl_keeps (fun p => p.rs.requests) _ (fun e r => (e.releaseRoute_keeps r).2.2.2.2.1) l e₀,
    Ev.foldl_keeps (fun p => p.rs.routes) _ (fun e r => (e.releaseRoute_keeps r).2.2.2.2.2.1) l e₀,
    Ev.foldl_keepsEv Ev.late _ (fun e r => (e.releaseRoute_keeps r).2.2.2.2.2.2.1) l e₀, fun w => ?_⟩
  suffices h : ∀ (l : List ActiveRoute) (f : Ev), (l.foldl Ev.releaseRoute f).p.device w = f.p.device w ∨
      (l.foldl Ev.releaseRoute f).p.device w = { f.p.device w with permit := .hold } from h l e₀
  intro l
  induction l with
  | nil => exact fun f => .inl rfl
  | cons r l ih =>
    intro f
    have hr := (f.releaseRoute_keeps r).2.2.2.2.2.2.2 w
    rw [List.foldl_cons]
    rcases ih (f.releaseRoute r) with h | h <;> rw [h, hr] <;> split <;> simp

/-! ### One raise (R131) -/

theorem mem_allZones (z : ZoneId) : z ∈ allZones := List.mem_finRange z

theorem mem_allCauses (c : Cause) : c ∈ allCauses := by cases c <;> decide

/-- A cause that joins the set is in it, and so is every cause that was. -/
theorem mem_addCause (cs : List Cause) (c x : Cause) : x ∈ addCause cs c ↔ x = c ∨ x ∈ cs := by
  simp [addCause, mem_allCauses]

/-- Every permit is HOLD, and the devices keep everything else (R90). -/
theorem Ev.holdAllPermits_device (e : Ev) (w : ZoneId) :
    e.holdAllPermits.p.device w = { e.p.device w with permit := .hold } := by
  have h : ∀ (l : List ZoneId) (e : Ev),
      (l.foldl (fun e z => e.setPermit z .hold) e).p.device w =
        if w ∈ l then { e.p.device w with permit := .hold } else e.p.device w := by
    intro l
    induction l with
    | nil => intro e; simp
    | cons z l ih =>
      intro e
      rw [List.foldl_cons, ih]
      simp only [Ev.setPermit_p, Part.modDevice_device, List.mem_cons]
      by_cases hz : w = z
      · subst hz; simp
      · simp [hz]
  rw [Ev.holdAllPermits, h, if_pos (mem_allZones w)]

theorem Ev.holdAllPermits_keeps (e : Ev) :
    e.holdAllPermits.p = { e.p with devices := e.holdAllPermits.p.devices } ∧ e.holdAllPermits.late = e.late := by
  have h : ∀ (l : List ZoneId) (e : Ev),
      (l.foldl (fun e z => e.setPermit z .hold) e).p =
        { e.p with devices := (l.foldl (fun e z => e.setPermit z .hold) e).p.devices } ∧
      (l.foldl (fun e z => e.setPermit z .hold) e).late = e.late := by
    intro l
    induction l with
    | nil => exact fun e => ⟨rfl, rfl⟩
    | cons z l ih =>
      intro e
      rw [List.foldl_cons]
      exact ⟨(ih _).1, (ih _).2⟩
  exact h allZones e

/-- An event with no dispatch, no cause and no late record ends with its examination only. -/
theorem Ev.finish_of_nothing (e : Ev) (hd : e.dispatches = []) (hr : e.raised = []) (hl : e.late = [])
    (hq : e.p.rs.requests = []) : e.finish = e.p := by
  obtain ⟨p, wake, raised, dispatches, late⟩ := e
  subst hd hr hl
  simp only [Ev.finish, Ev.settle, Ev.close, Ev.recordDispatches, Ev.applyRaises, Ev.examineQueue, List.foldl_nil]
  simp only at hq
  simp only [hq, List.length_nil, Ev.examine, Ev.queueLate, List.foldl_nil]

/-- An event that nothing woke leaves the Route Setter's queue alone. -/
theorem Ev.finish_start (p : Part) : (Ev.start p).finish = p := by
  simp only [Ev.finish, Ev.settle, Ev.close, Ev.recordDispatches, Ev.applyRaises, Ev.examineQueue, Ev.start,
    List.foldl_nil]
  cases p.rs.requests.length <;> simp [Ev.examine, Ev.queueLate]

/-- The causes of an event in CONFIG change nothing (R131). -/
theorem Ev.applyRaise_config (e : Ev) (r : Raise) (h : e.p.mc.mode = .config) : e.applyRaise r = e := by
  unfold Ev.applyRaise; rw [if_pos (show e.p.mode = .config from h)]

/-- A raise outside CONFIG up to its record: the latch, the permits, the setting, the requests and the SET routes. -/
def Ev.raiseBody (e : Ev) (c : Cause) : Ev :=
  (((e.mod (fun p => (p.modMode (fun m => m.latchCause c)).requestBroadcast (!p.mc.latch))).holdAllPermits.unwind.removeRequests
    (fun _ => true)).removeRoutes (fun x => x.phase == .set))

/-- A raise outside CONFIG is its body, its record and the change of mode (R131). -/
theorem Ev.applyRaise_eq (e : Ev) (r : Raise) (h : e.p.mc.mode ≠ .config) :
    e.applyRaise r =
      let f := (e.raiseBody r.cause).record (e.raiseBody r.cause).p.now none none (.holdAll r.cause (!e.p.mc.latch) r.entry)
      if e.p.mc.mode.mayRelease then f.changeMode .stopped else f := by
  unfold Ev.applyRaise; rw [if_neg (show ¬e.p.mode = .config from h)]; rfl

/-- What the body of a raise leaves behind, whole. -/
theorem Ev.raiseBody_spec (e : Ev) (c : Cause) :
    (e.raiseBody c).p.mc = e.p.mc.latchCause c ∧
    (e.raiseBody c).p.ring =
      { e.p.ring with bcastPending := true
                      bcastTimer := if e.p.mc.latch then e.p.ring.bcastTimer
                        else some (addTicks e.p.now e.p.cycleTicks) } ∧
    (e.raiseBody c).p.mgmt = e.p.mgmt ∧ (e.raiseBody c).p.dsp = e.p.dsp ∧ (e.raiseBody c).p.cnt = e.p.cnt ∧
    (e.raiseBody c).p.lines = e.p.lines ∧ (e.raiseBody c).p.store = e.p.store ∧ (e.raiseBody c).p.cls = e.p.cls ∧
    (e.raiseBody c).p.rs.setting = none ∧ (e.raiseBody c).p.rs.requests = [] ∧
    (e.raiseBody c).p.rs.routes = e.p.rs.routes.filter (fun r => r.phase == .committed) ∧
    (∀ w, (e.raiseBody c).p.device w = { e.p.device w with permit := .hold }) ∧
    e.p.TrackKept (e.raiseBody c).p ∧ e.p.ClaimsFreed (e.raiseBody c).p e.p.heldAllClaims ∧
    (e.raiseBody c).late = e.late := by
  unfold Ev.raiseBody
  generalize ha : e.mod (fun p => (p.modMode (fun m => m.latchCause c)).requestBroadcast (!p.mc.latch)) = a
  obtain ⟨hb, hbl⟩ := a.holdAllPermits_keeps
  have hbd := a.holdAllPermits_device
  generalize a.holdAllPermits = b at hb hbl hbd
  have huw := b.unwind_keeps
  have hus := b.unwind_setting
  have hut := b.unwind_track
  have huf := b.unwind_freed
  have huo := b.unwind_outer
  generalize b.unwind = u at huw hus hut huf huo
  generalize hd : u.removeRequests (fun _ => true) = d
  have hrs := d.removeRoutes_spec (fun x => x.phase == .set)
  have hro := d.removeRoutes_outer (fun x => x.phase == .set)
  have hrf := d.removeRoutes_freed (fun x => x.phase == .set)
  generalize d.removeRoutes (fun x => x.phase == .set) = f at hrs hro hrf
  obtain ⟨ht, hm, hds, hc, hst, hrq, hrt, hl, hdv⟩ := hrs
  obtain ⟨um, ud, uds, uc, urq, urt, ul⟩ := huw
  subst hd
  have hout : f.p.outer = b.p.outer := by rw [hro, Ev.removeRequests_outer, huo]
  have hout' : f.p.outer = a.p.outer := by rw [hout, hb]; rfl
  refine ⟨?_, ?_, ?_, ?_, ?_, ?_, ?_, ?_, ?_, ?_, ?_, ?_, ?_, ?_, ?_⟩
  · rw [Part.outer_mc hout', ← ha]; rfl
  · rw [Part.outer_ring hout', ← ha]
    simp only [Ev.mod, Part.requestBroadcast, Part.modRing, Part.modMode]
    cases e.p.mc.latch <;> rfl
  · rw [hm]; show u.p.mgmt = _; rw [um, hb, ← ha]; rfl
  · rw [hds]; show u.p.dsp = _; rw [uds, hb, ← ha]; rfl
  · rw [hc]; show u.p.cnt = _; rw [uc, hb, ← ha]; rfl
  · rw [Part.outer_lines hout', ← ha]; rfl
  · rw [Part.outer_store hout', ← ha]; rfl
  · rw [Part.outer_cls hout', ← ha]; rfl
  · rw [hst]; exact hus
  · rw [hrq]; simp [Ev.removeRequests, Ev.mod, Part.modSetter]
  · rw [hrt]
    have h1 : (u.removeRequests (fun _ => true)).p.rs.routes = e.p.rs.routes := by
      show u.p.rs.routes = _; rw [urt, hb, ← ha]; rfl
    rw [h1]; congr 1; funext r; cases r.phase <;> rfl
  · intro w
    have h1 : (u.removeRequests (fun _ => true)).p.device w = { e.p.device w with permit := .hold } := by
      show u.p.device w = _
      have : u.p.device w = b.p.device w := by simp only [Part.device, ud]
      rw [this, hbd, ← ha]; rfl
    rcases hdv w with h | h <;> rw [h, h1]
  · refine (Part.TrackKept.of_trk (p := e.p) (q := b.p) ?_).trans
      (hut.trans ((Part.TrackKept.of_trk (p := u.p) (q := (u.removeRequests (fun _ => true)).p) rfl).trans ht))
    rw [hb, ← ha]; rfl
  · have h1 : b.p.stacked = e.p.stacked := by rw [hb, ← ha]; rfl
    have h2 : (u.removeRequests (fun _ => true)).p.rs.routes = e.p.rs.routes := by
      show u.p.rs.routes = _; rw [urt, hb, ← ha]; rfl
    have hust : u.p.store = b.p.store := Part.outer_store huo
    rw [h1] at huf
    rw [h2] at hrf
    have h3 := (huf.trans (.after (p := u.p) (q := (u.removeRequests (fun _ => true)).p) rfl rfl rfl hrf) hust).perm List.perm_append_comm
    refine .after (q := b.p) ?_ ?_ ?_ h3
    · rw [hb, ← ha]; rfl
    · rw [hb, ← ha]; rfl
    · rw [hb, ← ha]; rfl
  · rw [hl]; show u.late = _; rw [ul, hbl, ← ha]; rfl

/-- The modes outside CONFIG in which no permit may open: STOPPED alone. -/
theorem Mode.eq_stopped {m : Mode} (h : m ≠ .config) (hr : m.mayRelease = false) : m = .stopped := by
  cases m <;> simp_all [Mode.mayRelease]

/-- A cause of an event that has done nothing else, outside CONFIG: its whole effect (R131). -/
theorem Ev.raise_finish (p : Part) (c : Cause) (entry : Option EntryId) (e : Ev) (he : e.p = p) (hl : e.late = [])
    (hd : e.dispatches = []) (hr : e.raised = [{ cause := c, entry := entry }]) (h : p.mc.mode ≠ .config) :
    ∃ q : Part, e.finish = q ∧ p.RaisedTo { q with mgmt := p.mgmtAfterRaise c none } c ∧
      q.mgmt = p.mgmtAfterRaise c entry := by
  subst he
  have hfin : e.finish = (({ e with raised := [], dispatches := [] } : Ev).applyRaise { cause := c, entry := entry }).close := by
    obtain ⟨p, wake, raised, dispatches, late⟩ := e
    subst hl hd hr
    rfl
  refine ⟨_, rfl, ?_⟩
  rw [hfin]
  generalize he' : ({ e with raised := [], dispatches := [] } : Ev) = e'
  have hp : e'.p = e.p := by rw [← he']
  have hl' : e'.late = [] := by rw [← he']; exact hl
  rw [← hp] at h ⊢
  obtain ⟨hmc, hring, hm, hds, hc, hln, hst, hcl, hset, hreq, hrts, hdev, htrk, hfr, hlate⟩ := e'.raiseBody_spec c
  rw [Ev.applyRaise_eq _ _ h]
  dsimp only at *
  generalize e'.raiseBody c = b at *
  have hclose : ∀ f : Ev, f.p.rs.requests = [] → f.late = [] → f.close = f.p := by
    intro f hq hlf
    simp [Ev.close, Ev.examineQueue, hq, Ev.examine, Ev.queueLate, hlf]
  have hnow : b.p.now = e'.p.ring.ringTime := by simp [Part.now, hring]
  by_cases hrun : e'.p.mc.mode.mayRelease = true
  · rw [if_pos hrun, hclose]
    · refine ⟨⟨⟨rfl, ?_, ?_, fun z => ?_, ?_, hset, hreq, ?_⟩, fun x => ?_, ?_, ?_, hrts, hdev, ?_, ?_, hfr.before rfl rfl hst,
        hln, hst, hcl, hds, hc⟩, ?_⟩
      · show b.p.mc.latch = true; rw [hmc]; rfl
      · show c ∈ b.p.mc.causes; rw [hmc]; simp [ModeCtl.latchCause, mem_addCause]
      · exact congrArg DeviceRec.permit (hdev z)
      · show b.p.ring.bcastPending = true; rw [hring]
      · intro r hr; have : r ∈ b.p.rs.routes := hr; rw [hrts] at this; simpa using (List.mem_filter.mp this).2
      · show x ∈ b.p.mc.causes ↔ _; rw [hmc]; simp [ModeCtl.latchCause, mem_addCause]
      · simp only [Ev.changeMode, Ev.woken, Ev.record, Ev.mod, Part.queueEvent, Part.modMgmt, Part.modMode, hmc, hrun,
          ModeCtl.latchCause, if_true]; rfl
      · show b.p.ring = _; rw [hring]; simp [addTicks, Part.periods, Part.cycleTicks, msTicks, Part.now]
      · rfl
      · exact htrk.trans (.of_trk rfl)
      · simp only [Ev.changeMode, Ev.woken, Ev.record, Ev.mod, Part.queueEvent, Part.modMgmt, Part.modMode, hm,
          Part.mgmtAfterRaise, hrun, if_true, Part.mode, hmc, ModeCtl.latchCause, Part.now, hring]
    · exact hreq
    · exact hlate.trans hl'
  · rw [if_neg hrun, hclose]
    · have hs := Mode.eq_stopped h (by simpa using hrun)
      refine ⟨⟨⟨?_, ?_, ?_, fun z => ?_, ?_, hset, hreq, ?_⟩, fun x => ?_, ?_, ?_, hrts, hdev, ?_, ?_, hfr.before rfl rfl hst,
        hln, hst, hcl, hds, hc⟩, ?_⟩
      · show b.p.mc.mode = .stopped; rw [hmc]; exact hs
      · show b.p.mc.latch = true; rw [hmc]; rfl
      · show c ∈ b.p.mc.causes; rw [hmc]; simp [ModeCtl.latchCause, mem_addCause]
      · exact congrArg DeviceRec.permit (hdev z)
      · show b.p.ring.bcastPending = true; rw [hring]
      · intro r hr; have : r ∈ b.p.rs.routes := hr; rw [hrts] at this; simpa using (List.mem_filter.mp this).2
      · show x ∈ b.p.mc.causes ↔ _; rw [hmc]; simp [ModeCtl.latchCause, mem_addCause]
      · show b.p.mc = _; rw [hmc]; simp [ModeCtl.latchCause, hrun, Ev.record, Ev.mod, Part.queueEvent, Part.modMgmt, hmc, ← hs]
      · show b.p.ring = _; rw [hring]; simp [addTicks, Part.periods, Part.cycleTicks, msTicks, Part.now]
      · rfl
      · exact htrk.trans (.of_trk rfl)
      · simp only [Ev.record, Ev.mod, Part.queueEvent, Part.modMgmt, hm, hnow, Part.mgmtAfterRaise, hrun]; rfl
    · exact hreq
    · exact hlate.trans hl'

/-- One raise outside CONFIG, by an event that does nothing else: the whole of R131. -/
theorem Ev.raise_raisedTo (p : Part) (c : Cause) (h : p.mc.mode ≠ .config) :
    p.RaisedTo ((Ev.start p).raise c).finish c := by
  obtain ⟨q, hq, hr, hm⟩ := Ev.raise_finish p c none ((Ev.start p).raise c) rfl rfl rfl rfl h
  rw [hq]
  rw [← hm] at hr
  exact hr

end Sys2Proof.Machine
end

