-- ==== Sys2Proof/Laws/Requests.lean ====
section
/-! SUPPORT. How a command reaches the part, said once: a command of a part out of reset, a frame that a receiving port
takes, and a management request from its frame to its response (R145, R148, R163, R166).  A statement about a request
follows from `State.onRequest_eq` and the answer of its code. -/

namespace Sys2Proof.Machine

theorem Part.live_of (p : Part) (f : Part → Part) (h : p.isLive = true) : p.live f = f p := by
  unfold Part.live
  rw [if_neg (by simpa [Part.isLive] using h)]

theorem Part.live_inReset (p : Part) (f : Part → Part) (h : p.lines.inReset = true) : p.live f = p := by
  unfold Part.live
  rw [if_pos h]

theorem Part.isLive_of_hears {p : Part} {port : InPort} (h : p.hears port = true) : p.isLive = true := by
  simp only [Part.hears, Bool.and_eq_true] at h
  exact h.1

/-- A receiving port takes its frame and falls IDLE (R145). -/
theorem Part.receive_of_hears (p : Part) (port : InPort) (take : Part → Part) (h : p.hears port = true) :
    p.receive port take = take (p.modRing (fun r => r.setRx port .idle)) := by
  simp only [Part.hears, Bool.and_eq_true, beq_iff_eq] at h
  unfold Part.receive
  rw [if_pos h.2]

/-- An intact frame on C-in reaches the classifier (R148). -/
theorem State.onCin_eq (s : State) (f : Frame) (h : s.part.hears .cIn = true) :
    s.onCin f = .next { s with part := (s.part.modRing (fun r => r.setRx .cIn .idle)).takeCin f } := by
  unfold State.onCin State.onPart
  beta_reduce
  rw [Part.live_of _ _ (Part.isLive_of_hears h), Part.receive_of_hears _ _ _ h]

/-- An intact frame on F-in reaches the classifier (R149). -/
theorem State.onFin_eq (s : State) (f : Frame) (h : s.part.hears .fIn = true) :
    s.onFin f = .next { s with part := (s.part.modRing (fun r => r.setRx .fIn .idle)).takeFin f } := by
  unfold State.onFin State.onPart
  beta_reduce
  rw [Part.live_of _ _ (Part.isLive_of_hears h), Part.receive_of_hears _ _ _ h]

/-- What the port and its counter become, in one name (R145, R179). -/
theorem Part.frameTaken_eq (p : Part) (port : InPort) :
    (p.modRing (fun r => r.setRx port .idle)).countReceived port = p.frameTaken port := by
  cases port <;> rfl

/-- Code 0Bh alone is QUERY_ZONE (11.3). -/
theorem requestOf_queryZone (code : Byte) : requestOf code = some .queryZone ↔ code = 0x0B := by
  revert code; decide +kernel

/-- The request code without a definition is 00h or above 15h (11.3). -/
theorem requestOf_none (code : Byte) : requestOf code = none ↔ code = 0 ∨ 0x15 < code.toNat := by
  revert code; decide +kernel

/-- A request that is carried out leaves its response and the precedence record (R163, R166). -/
theorem Part.carryOut_eq (p : Part) (tag code : Byte) (args : List Byte) :
    p.carryOut tag code args =
      (p.answer code args).ev.finish.responded tag code args (p.answer code args).result
        ((p.answer code args).data (p.answer code args).ev.finish) := by
  simp only [Part.carryOut, Part.responded, Part.modMgmt, precedenceOf, requestOf_queryZone, Bool.beq_eq_decide_eq]

/-- A MGMT_REQUEST to node 62 reaches the Management Unit (R148). -/
theorem Part.takeCin_request (p : Part) (tag code : Byte) (args : List Byte) :
    p.takeCin (requestFrame (tag :: code :: args)) = (p.countReceived .cIn).takeRequest tag code args := rfl

/-- A request that the part takes is carried out whole, in one event (R163). -/
theorem State.onRequest_eq (s : State) (tag code : Byte) (args : List Byte) (h : s.part.takesRequest = true) :
    s.onRequest tag code args =
      .next { s with part :=
        (((s.part.frameTaken .cIn).answer code args).ev.finish.responded tag code args
          ((s.part.frameTaken .cIn).answer code args).result
          (((s.part.frameTaken .cIn).answer code args).data ((s.part.frameTaken .cIn).answer code args).ev.finish)) } := by
  simp only [Part.takesRequest, Bool.and_eq_true, Bool.not_eq_true', decide_eq_true_eq] at h
  obtain ⟨⟨hh, hr⟩, hl⟩ := h
  unfold State.onRequest
  rw [State.onCin_eq _ _ hh, Part.takeCin_request, Part.frameTaken_eq]
  have h1 : (s.part.frameTaken .cIn).mgmt.resetPending = false := hr
  have h2 : ¬Config.responseCapacity ≤ (s.part.frameTaken .cIn).mgmt.responses.length := Nat.not_le.mpr hl
  simp only [Part.takeRequest, h1, if_neg h2, Part.carryOut_eq, Bool.false_eq_true, if_false]

/-- A refusal is answered with its result and its data, and leaves the part as it was. -/
theorem State.onRequest_refuse (s : State) (tag code : Byte) (args : List Byte) (r : Result) (data : List Byte)
    (h : s.part.takesRequest = true) (ha : (s.part.frameTaken .cIn).answer code args = refuse (s.part.frameTaken .cIn) r data) :
    s.onRequest tag code args =
      .next { s with part := (s.part.frameTaken .cIn).responded tag code args r data } := by
  rw [State.onRequest_eq _ _ _ _ h, ha]
  simp only [refuse, Ev.finish_start]

/-- A success whose only effect is a change of the part that wakes nothing and raises nothing. -/
theorem State.onRequest_change (s : State) (tag code : Byte) (args : List Byte) (q : Part) (data : Part → List Byte)
    (h : s.part.takesRequest = true) (ha : (s.part.frameTaken .cIn).answer code args = succeed (.start q) data) :
    s.onRequest tag code args = .next { s with part := q.responded tag code args .success (data q) } := by
  rw [State.onRequest_eq _ _ _ _ h, ha]
  simp only [succeed, Ev.finish_start]

/-- The answer of a request with a definition and enough arguments is what its code does (R163). -/
theorem Part.answer_of (p : Part) (code : Byte) (args : List Byte) (c : Request.Code) (hc : requestOf code = some c)
    (hl : c.tooShort args = false) : p.answer code args = p.perform c args := by
  simp only [Part.answer, hc, hl, Bool.false_eq_true, if_false]

end Sys2Proof.Machine
end

