-- ==== Sys2Proof/Laws/Due.lean ====
section
/-! SUPPORT. Where nothing is due nothing is taken (R51), said once for each expiry and for all of them; and the path of a
report from its frame to its interpretation (R149). -/

namespace Sys2Proof.Machine

/-! ## An expiry that is not due is not taken -/

theorem isDue_some (now t : RingTime) : isDue now (some t) = atOrAfter now t := rfl

theorem isDue_none (now : RingTime) : isDue now none = false := rfl

/-- Nothing is due of zone `z`, said of its three expiries. -/
theorem Part.zoneQuiet_iff (p : Part) (z : ZoneId) :
    p.zoneQuiet z = true ↔
      isDue p.now (p.zone z).trapExpiry = false ∧ isDue p.now (p.zone z).transitExpiry = false ∧
        isDue p.now (p.zone z).releaseTimer = false := by
  simp only [Part.zoneQuiet, Bool.and_eq_true, Bool.not_eq_true', and_assoc]

theorem ZoneDyn.trapFirst_of_quiet (d : ZoneDyn) (now : RingTime) (h : isDue now d.trapExpiry = false) :
    d.trapFirst now = false := by
  unfold ZoneDyn.trapFirst
  revert h
  rcases d.trapExpiry with _ | a <;> rcases d.transitExpiry with _ | b <;> simp +contextual [isDue]

theorem Part.takeTrap_of_quiet (p : Part) (z : ZoneId) (h : p.zoneQuiet z = true) : p.takeTrap z = p := by
  have ht := ZoneDyn.trapFirst_of_quiet (p.zone z) p.now ((p.zoneQuiet_iff z).1 h).1
  unfold Part.takeTrap
  dsimp only
  split
  · simp [ht]
  · rfl

theorem Part.takeTransit_of_quiet (p : Part) (z : ZoneId) (h : p.zoneQuiet z = true) : p.takeTransit z = p := by
  have ht := ((p.zoneQuiet_iff z).1 h).2.1
  unfold Part.takeTransit
  dsimp only
  split
  · rename_i heq _
    rw [heq, isDue_some] at ht
    simp [ht]
  · rfl

theorem Part.takeRelease_of_quiet (p : Part) (z : ZoneId) (h : p.zoneQuiet z = true) : p.takeRelease z = p := by
  have ht := ((p.zoneQuiet_iff z).1 h).2.2
  unfold Part.takeRelease
  dsimp only
  split
  · rename_i heq
    rw [heq, isDue_some] at ht
    simp [ht]
  · rfl

theorem Part.takeZoneDue_of_quiet (p : Part) (z : ZoneId) (h : p.zoneQuiet z = true) : p.takeZoneDue z = p := by
  unfold Part.takeZoneDue
  rw [Part.takeTrap_of_quiet p z h, Part.takeTransit_of_quiet p z h, Part.takeTrap_of_quiet p z h,
    Part.takeRelease_of_quiet p z h]

theorem Part.takeGap_of_quiet (p : Part) (h : isDue p.now p.dsp.expiry = false) : p.takeGap = p := by
  unfold Part.takeGap
  rw [h]
  rfl

theorem Part.takeSwitchTimer_of_quiet (p : Part) (h : isDue p.now p.rs.timer = false) : p.takeSwitchTimer = p := by
  unfold Part.takeSwitchTimer
  rw [h]
  rfl

theorem Part.takeSupervision_of_quiet (p : Part) (z : ZoneId) (h : isDue p.now (p.device z).timer = false) :
    p.takeSupervision z = p := by
  unfold Part.takeSupervision
  split
  · rename_i heq _
    rw [heq, isDue_some] at h
    simp [h]
  · rfl

theorem Part.takeRefusal_of_quiet (p : Part) (z : ZoneId)
    (h : p.rs.requests.all (fun q => !isDue p.now q.refusal) = true) : p.takeRefusal z = p := by
  unfold Part.takeRefusal
  split
  · rename_i q _ hq _
    have hd := List.all_eq_true.1 h q (List.mem_of_find?_eq_some hq)
    split
    · rename_i heq
      rw [heq, isDue_some] at hd
      simp only [Bool.not_eq_true'] at hd
      simp [hd]
    · rfl
  · rfl

theorem Part.takeBroadcast_of_quiet (p : Part) (h : isDue p.now p.ring.bcastTimer = false) : p.takeBroadcast = p := by
  unfold Part.takeBroadcast
  rw [h]
  rfl

theorem Part.takeSilence_of_quiet (p : Part) (h : isDue p.now p.ring.silenceTimer = false) : p.takeSilence = p := by
  unfold Part.takeSilence
  split
  · rename_i heq
    rw [heq, isDue_some] at h
    simp [h]
  · rfl

theorem Part.takeLink_of_quiet (p : Part) (h : isDue p.now p.ring.linkTimer = false) : p.takeLink = p := by
  unfold Part.takeLink
  split
  · rename_i heq
    rw [heq, isDue_some] at h
    simp [h]
  · rfl

theorem Part.takeLinkRepetition_of_quiet (p : Part) (h : isDue p.now p.ring.repTimer = false) :
    p.takeLinkRepetition = p := by
  unfold Part.takeLinkRepetition
  rw [h]
  rfl

/-! ## Nothing due, nothing taken -/

/-- A fold of operations that each leave `p` alone leaves it alone. -/
theorem foldl_fixed {α β : Type} (f : α → β → α) (p : α) (l : List β) (h : ∀ b ∈ l, f p b = p) : l.foldl f p = p := by
  induction l with
  | nil => rfl
  | cons b l ih =>
    rw [List.foldl_cons, h b (by simp)]
    exact ih (fun c hc => h c (by simp [hc]))

/-- Where no expiry of a zone or of the gap is due, a report takes none. -/
theorem Part.takeEdgeDue_of_quiet (p : Part) (h : p.edgeQuiet = true) : p.takeEdgeDue = p := by
  simp only [Part.edgeQuiet, Bool.and_eq_true, Bool.not_eq_true'] at h
  unfold Part.takeEdgeDue
  rw [foldl_fixed _ p _ (fun z hz => Part.takeZoneDue_of_quiet p z (List.all_eq_true.1 h.1 z hz)),
    Part.takeGap_of_quiet p h.2]

/-- Where nothing is due, a change of ring time takes nothing. -/
theorem Part.takeDue_of_quiet (p : Part) (h : p.nothingDue = true) : p.takeDue = p := by
  simp only [Part.nothingDue, Bool.and_eq_true, Bool.not_eq_true'] at h
  obtain ⟨⟨⟨⟨⟨⟨⟨he, hd⟩, hq⟩, hs⟩, hb⟩, hsil⟩, hl⟩, hr⟩ := h
  unfold Part.takeDue
  dsimp only
  rw [Part.takeEdgeDue_of_quiet p he, foldl_fixed _ p _ (fun z _ => Part.takeRefusal_of_quiet p z hq),
    Part.takeSwitchTimer_of_quiet p hs,
    foldl_fixed _ p _ (fun z hz => Part.takeSupervision_of_quiet p z (by simpa using List.all_eq_true.1 hd z hz)),
    Part.takeBroadcast_of_quiet p hb, Part.takeSilence_of_quiet p hsil, Part.takeLink_of_quiet p hl,
    Part.takeLinkRepetition_of_quiet p hr]

/-! ## A report (R149) -/

/-- An outage that ends, in the words of the statements (R159). -/
theorem Part.restoreLink_eq (p : Part) : p.restoreLink = p.linkRestored := by
  unfold Part.restoreLink Part.linkRestored
  split <;> simp only [Part.modRing, addTicks, Part.cycleTicks, msTicks, Part.periods, Part.now, Nat.mul_comm]

/-- Joining the upstream queue, in the words of the statements (R150). -/
theorem Part.queueUp_eq (p : Part) (f : Frame) : p.queueUp f = p.joinedUp f := rfl

/-- A report of a field node is interpreted, the expiries its edges started due are taken, and it joins the upstream queue
(R51, R149, R159). -/
theorem State.onFin_report (s : State) (f : Frame) (r : Report) (h : s.part.TakesReport f r) :
    s.onFin f = .next { s with part := ((s.part.frameTaken .fIn).linkRestored.takeReport r).joinedUp f } := by
  obtain ⟨hh, ht, hr⟩ := h
  rw [State.onFin_eq _ _ hh]
  unfold Part.takeFin
  rw [Part.frameTaken_eq, Part.restoreLink_eq]
  simp only [ht, hr, if_true, Part.queueUp_eq]

end Sys2Proof.Machine
end

