-- ==== Sys2Proof/Laws/Fault.lean ====
section
/-! SUPPORT. A tracking fault (R43), said once: what it makes of the zone, its train, its route, its permit and its request,
what it queues and raises, and everything it leaves as it was; and an event that is one fault, to its end. -/

namespace Sys2Proof.Machine

/-- What steps 1 to 3 of R43 make of the zone. -/
def ZoneDyn.faulted (d : ZoneDyn) (keeps : Bool) (reason : FaultReason) : ZoneDyn :=
  { d with state := .fault, occupant := if keeps then d.occupant else none
           epoch := if d.state = .fault ∧ d.occupant = (if keeps then d.occupant else none) then d.epoch else d.epoch + 1
           reason := some reason, deadline := none, remainder := none, pauseMark := false, trap := .none
           trapExpiry := none, transitExpiry := none, releaseTimer := none }

/-- Steps 1 to 3 of R43: the zone is FAULT, and a train whose tail it is leaves it. -/
def Ev.faultZone (e : Ev) (z : ZoneId) (reason : FaultReason) : Ev :=
  let x := (e.p.zone z).occupant
  let leaving := x.filter (fun t => e.p.isTailOf z t)
  let e := (e.setZone z .fault (if leaving.isSome then none else x)).modZone z (fun d =>
    { d with reason := some reason, deadline := none, remainder := none, pauseMark := false, trap := .none
             trapExpiry := none, transitExpiry := none, releaseTimer := none })
  match leaving with
  | none => e
  | some t => e.modTrain t (fun r => { r with tail := none })

/-- Steps 4 and 5 of R43: the permit, the routes out of the zone, its setting and its request. -/
def Ev.faultRoutes (e : Ev) (z : ZoneId) : Ev :=
  (((e.setPermit z .hold).removeRoutes (fun r => r.zone == z)).unwindFor z).removeRequests (fun q => q.zone == z)

/-- A tracking fault is its steps in order (R43). -/
theorem Ev.fault_eq (e : Ev) (z : ZoneId) (reason : FaultReason) (time : RingTime) :
    e.fault z reason time =
      (((e.faultZone z reason).faultRoutes z).record time (some z) (e.p.zone z).occupant (.trackingFault reason)).raise
        .tracking := rfl

/-- The zones and trains after steps 1 to 3, for a zone that names a train. -/
theorem Ev.faultZone_spec (e : Ev) (z : ZoneId) (reason : FaultReason) (x : TrainId) (hx : (e.p.zone z).occupant = some x) :
    (e.faultZone z reason).p.zone z = (e.p.zone z).faulted ((e.p.train x).tail != some z) reason ∧
    (∀ w, w ≠ z → (e.faultZone z reason).p.zone w = e.p.zone w) ∧
    (e.faultZone z reason).p.train x =
      { e.p.train x with tail := if (e.p.train x).tail = some z then none else (e.p.train x).tail } ∧
    (∀ y, y ≠ x → (e.faultZone z reason).p.train y = e.p.train y) ∧
    (e.faultZone z reason).p = { e.p with trk := (e.faultZone z reason).p.trk } ∧
    (e.faultZone z reason).late = e.late ∧ (e.faultZone z reason).raised = e.raised ∧
    (e.faultZone z reason).dispatches = e.dispatches := by
  by_cases ht : (e.p.train x).tail = some z
  · have hl : (some x).filter (fun t => e.p.isTailOf z t) = some x := by simp [Option.filter, Part.isTailOf, ht]
    unfold Ev.faultZone
    simp only [hx, hl, Option.isSome_some, if_true]
    refine ⟨?_, fun w hw => ?_, ?_, fun y hy => ?_, ?_, ?_, ?_, ?_⟩
    · simp [ZoneDyn.faulted, ht, hx]
    · simp [Part.modZone_zone, hw]
    · simp [ht]
    · simp [Part.modTrain_train, hy]
    · simp only [Ev.modTrain, Ev.modZone, Ev.mod, Ev.setZone]; split <;> rfl
    · simp
    · simp
    · simp
  · have hl : (some x).filter (fun t => e.p.isTailOf z t) = none := by simp [Option.filter, Part.isTailOf, ht]
    unfold Ev.faultZone
    simp only [hx, hl, Option.isSome_none, Bool.false_eq_true, if_false]
    refine ⟨?_, fun w hw => ?_, ?_, fun y hy => ?_, ?_, ?_, ?_, ?_⟩
    · simp [ZoneDyn.faulted, ht, hx]
    · simp [Part.modZone_zone, hw]
    · simp [ht]
    · simp
    · simp only [Ev.modZone, Ev.mod, Ev.setZone]; split <;> rfl
    · simp
    · simp
    · simp

/-! ### Steps 4 and 5 -/

/-- What an event still has to do. -/
def Ev.todo (e : Ev) : List Raise × List DispatchNote × List LateRecord := (e.raised, e.dispatches, e.late)

theorem Ev.releaseReserve_todo (e : Ev) (r : ZoneId) (x : TrainId) : (e.releaseReserve r x).todo = e.todo := by
  unfold Ev.releaseReserve; split <;> simp [Ev.todo]

theorem Ev.releaseClaim_todo (x : TrainId) (e : Ev) (c : Claim) : (e.releaseClaim x c).todo = e.todo := by
  cases c with
  | reserve r => exact e.releaseReserve_todo r x
  | flank z => rfl
  | switch n pos => simp only [Ev.releaseClaim]; unfold Ev.dropHolder; split <;> rfl

theorem Ev.unwind_todo (e : Ev) : e.unwind.todo = e.todo := by
  unfold Ev.unwind; split
  · rfl
  · rename_i s _
    exact Ev.foldl_keepsEv Ev.todo _ (Ev.releaseClaim_todo s.train) _ _

theorem Ev.unwindFor_todo (e : Ev) (z : ZoneId) : (e.unwindFor z).todo = e.todo := by
  unfold Ev.unwindFor; split
  · exact e.unwind_todo
  · rfl

theorem Ev.releaseRoute_todo (e : Ev) (r : ActiveRoute) : (e.releaseRoute r).todo = e.todo :=
  (Ev.releaseReserve_todo _ _ _).trans (Ev.foldl_keepsEv Ev.todo _ (Ev.releaseClaim_todo r.train) _ _)

theorem Ev.removeRoutes_todo (e : Ev) (sel : ActiveRoute → Bool) : (e.removeRoutes sel).todo = e.todo :=
  (Ev.foldl_keepsEv Ev.todo _ Ev.releaseRoute_todo _ _).trans rfl

/-- Unwinding for a zone keeps what unwinding keeps. -/
theorem Ev.unwindFor_keeps (e : Ev) (z : ZoneId) :
    e.p.TrackKept (e.unwindFor z).p ∧ (e.unwindFor z).p.mgmt = e.p.mgmt ∧ (e.unwindFor z).p.devices = e.p.devices ∧
      (e.unwindFor z).p.dsp = e.p.dsp ∧ (e.unwindFor z).p.cnt = e.p.cnt ∧
      (e.unwindFor z).p.rs.routes = e.p.rs.routes := by
  unfold Ev.unwindFor; split
  · obtain ⟨h1, h2, h3, h4, _, h6, _⟩ := e.unwind_keeps
    exact ⟨e.unwind_track, h1, h2, h3, h4, h6⟩
  · exact ⟨.refl _, rfl, rfl, rfl, rfl, rfl⟩

/-- What steps 4 and 5 of R43 make of the part. -/
theorem Ev.faultRoutes_spec (e : Ev) (z : ZoneId) :
    e.p.TrackKept (e.faultRoutes z).p ∧ (e.faultRoutes z).p.mgmt = e.p.mgmt ∧ (e.faultRoutes z).p.dsp = e.p.dsp ∧
      (e.faultRoutes z).p.cnt = e.p.cnt ∧
      (e.faultRoutes z).p.rs.routes = e.p.rs.routes.filter (fun r => r.zone != z) ∧
      (e.faultRoutes z).p.outer = e.p.outer ∧ (e.faultRoutes z).todo = e.todo ∧
      ∀ w, { (e.faultRoutes z).p.device w with permit := .hold } = { e.p.device w with permit := .hold } := by
  unfold Ev.faultRoutes
  generalize ha : e.setPermit z .hold = a
  obtain ⟨ht, hm, hd, hc, _, _, hr, _, hdv⟩ := a.removeRoutes_spec (fun r => r.zone == z)
  have ho := a.removeRoutes_outer (fun r => r.zone == z)
  have hto := a.removeRoutes_todo (fun r => r.zone == z)
  generalize a.removeRoutes (fun r => r.zone == z) = b at *
  obtain ⟨ut, um, ud, uds, uc, ur⟩ := b.unwindFor_keeps z
  have uo := b.unwindFor_outer z
  have uto := b.unwindFor_todo z
  generalize b.unwindFor z = u at *
  refine ⟨?_, ?_, ?_, ?_, ?_, ?_, ?_, fun w => ?_⟩
  · refine (Part.TrackKept.of_trk (p := e.p) (q := a.p) (by rw [← ha]; rfl)).trans (ht.trans (ut.trans ?_))
    exact Part.TrackKept.of_trk rfl
  · show u.p.mgmt = _; rw [um, hm, ← ha]; rfl
  · show u.p.dsp = _; rw [uds, hd, ← ha]; rfl
  · show u.p.cnt = _; rw [uc, hc, ← ha]; rfl
  · show u.p.rs.routes = _; rw [ur, hr, ← ha]; rfl
  · rw [Ev.removeRequests_outer, uo, ho, ← ha]; rfl
  · show u.todo = _; rw [uto, hto, ← ha]; rfl
  · have h1 : (u.removeRequests (fun q => q.zone == z)).p.device w = b.p.device w := by
      show u.p.device w = _; simp only [Part.device, ud]
    have h2 : ({ a.p.device w with permit := .hold } : DeviceRec) = { e.p.device w with permit := .hold } := by
      rw [← ha]; simp only [Ev.setPermit_p, Part.modDevice_device]; split
      · subst_vars; rfl
      · rfl
    rw [h1, ← h2]
    rcases hdv w with h | h <;> rw [h]

/-- The claims that steps 4 and 5 of R43 release: those of the routes out of the zone, and those of a setting for it. -/
theorem Ev.faultRoutes_freed (e : Ev) (z : ZoneId) :
    e.p.ClaimsFreed (e.faultRoutes z).p
        ((e.p.rs.routes.filter (fun r => r.zone == z)).flatMap ActiveRoute.claims ++
          (if e.p.isSetting z then e.p.stacked else [])) ∧
      (e.faultRoutes z).p.stacked = if e.p.isSetting z then [] else e.p.stacked := by
  unfold Ev.faultRoutes
  generalize ha : e.setPermit z .hold = a
  have hfr := a.removeRoutes_freed (fun r => r.zone == z)
  have ho := a.removeRoutes_outer (fun r => r.zone == z)
  have hk := a.removeRoutes_claimStack (fun r => r.zone == z)
  generalize a.removeRoutes (fun r => r.zone == z) = b at *
  have h1 : a.p.rs = e.p.rs := by rw [← ha]; rfl
  have hset : b.p.rs.setting = e.p.rs.setting ∧ b.p.rs.stack = e.p.rs.stack := by rw [hk.1, hk.2, h1]; exact ⟨rfl, rfl⟩
  have hst : b.p.stacked = e.p.stacked := by unfold Part.stacked; rw [hset.1, hset.2]
  have his : b.p.isSetting z = e.p.isSetting z := by unfold Part.isSetting; rw [hset.1]
  rw [h1] at hfr
  have hfr : e.p.ClaimsFreed b.p ((e.p.rs.routes.filter (fun r => r.zone == z)).flatMap ActiveRoute.claims) :=
    .after (q := a.p) (by rw [← ha]; rfl) (by rw [h1]) (by rw [← ha]; rfl) hfr
  have hbs : b.p.store = e.p.store := by rw [Part.outer_store ho, ← ha]; rfl
  unfold Ev.unwindFor
  rw [his]
  by_cases hz : e.p.isSetting z = true
  · simp only [hz, if_true]
    have hu := b.unwind_freed
    rw [hst] at hu
    refine ⟨(hfr.trans hu hbs).before rfl rfl ?_, ?_⟩
    · exact (Part.outer_store b.unwind_outer).trans hbs
    · show Part.stacked (b.unwind.removeRequests _).p = []
      have : (b.unwind.removeRequests (fun q => q.zone == z)).p.rs.setting = none := b.unwind_setting
      unfold Part.stacked; rw [this]
  · simp only [hz, Bool.false_eq_true, if_false, List.append_nil]
    exact ⟨hfr.before rfl rfl hbs, hst⟩

/-! ### An event that is one fault -/

/-- A tracking fault outside CONFIG in a zone that names a train and is not FAULT already, with a change of that train's
state, to the end of its event: the whole of R43 and R131. -/
theorem Ev.fault_faultedTo (p : Part) (z : ZoneId) (x : TrainId) (reason : FaultReason) (t : RingTime)
    (g : TrainState → TrainState) (hm : p.mc.mode ≠ .config) (hx : (p.zone z).occupant = some x)
    (hs : (p.zone z).state ≠ .fault) :
    p.FaultedTo (((Ev.start p).fault z reason t).modTrain x (fun r => { r with state := g r.state })).finish z x reason t ∧
      ((((Ev.start p).fault z reason t).modTrain x (fun r => { r with state := g r.state })).finish.train x).state =
        g (p.train x).state := by
  obtain ⟨hz, hzs, htx, hts, hpart, hl, hr, hd⟩ := (Ev.start p).faultZone_spec z reason x hx
  have ho1 : ((Ev.start p).faultZone z reason).p.outer = p.outer := by rw [hpart]; rfl
  rw [Ev.fault_eq]
  generalize (Ev.start p).faultZone z reason = a at *
  obtain ⟨kt, km, kd, kc, kr, ko, kto, kdv⟩ := a.faultRoutes_spec z
  obtain ⟨kf, ks⟩ := a.faultRoutes_freed z
  generalize a.faultRoutes z = b at *
  generalize he : ((b.record t (some z) ((Ev.start p).p.zone z).occupant (.trackingFault reason)).raise
    .tracking).modTrain x (fun r => { r with state := g r.state }) = e
  have hp0 : ∀ w, (Ev.start p).p.zone w = p.zone w := fun _ => rfl
  simp only [Ev.start_p] at hx hz hzs htx hts hpart he
  have ham : a.p.mgmt = p.mgmt := by rw [hpart]
  have had : a.p.devices = p.devices := by rw [hpart]
  have hout : e.p.outer = p.outer := by rw [← he, ← ho1, ← ko]; simp
  have htodo : e.todo = ([{ cause := .tracking, entry := none }], [], []) := by
    have h1 : b.todo = ([], [], []) := by
      rw [kto]; simp only [Ev.todo, hl, hr, hd, Ev.start_raised, Ev.start_dispatches, Ev.start_late]
    simp only [Ev.todo, Prod.mk.injEq] at h1 ⊢
    obtain ⟨e1, e2, e3⟩ := h1
    rw [← he]
    simp [e1, e2, e3]
  simp only [Ev.todo, Prod.mk.injEq] at htodo
  have hmode : e.p.mc.mode ≠ .config := by rw [Part.outer_mc hout]; exact hm
  obtain ⟨q, hq, hrt, hmg⟩ := Ev.raise_finish e.p .tracking none e rfl htodo.2.2 htodo.2.1 htodo.1 hmode
  rw [hq]
  have hRT : e.p.RaisedTo q .tracking := by rw [← hmg] at hrt; exact hrt
  have hmc : e.p.mc = p.mc := Part.outer_mc hout
  have hring : e.p.ring = p.ring := Part.outer_ring hout
  have hstore : e.p.store = p.store := Part.outer_store hout
  have hez : ∀ w, e.p.zone w = b.p.zone w := fun w => by rw [← he]; rfl
  have hetr : ∀ y, e.p.train y = if y = x then { b.p.train y with state := g (b.p.train y).state } else b.p.train y := by
    intro y; rw [← he]; simp only [Ev.modTrain_p, Part.modTrain_train]
    split
    · subst_vars; rfl
    · rfl
  have hkeep : (p.train x).tail = some z ∨ (p.train x).tail ≠ some z := Classical.em _
  have haz : (a.p.zone z).state = .fault := by rw [hz]; rfl
  have hbz := kt.zones z (by rw [haz]; decide)
  have hbzs : (b.p.zone z).state = .fault := by
    have := congrArg ZoneDyn.state hbz; rw [haz] at this; exact this
  have hqz := hRT.tracking.zones z (by rw [hez, hbzs]; decide)
  rw [hez] at hqz
  have htrain : ∀ y, { q.train y with reserved := (e.p.train y).reserved } = e.p.train y := hRT.tracking.trains
  have hxs : (q.train x).state = g (p.train x).state := by
    have h1 := congrArg TrainRec.state (htrain x)
    rw [hetr, if_pos rfl] at h1
    have h2 := congrArg TrainRec.state (kt.trains x)
    rw [htx] at h2
    simp only at h1 h2
    rw [h1, h2]
  refine ⟨⟨hRT.held, fun c => by rw [hRT.causes c, hmc], hRT.mode.trans (by rw [hmc]), ?_, ?_, ?_, ?_, ?_, ?_, ?_, ?_, ?_, ?_,
    ?_, ?_, ?_, ?_⟩, hxs⟩
  · -- the zone
    have h1 : { q.zone z with flank := (a.p.zone z).flank } = a.p.zone z := by
      have h2 := congrArg (fun d : ZoneDyn => { d with flank := (a.p.zone z).flank }) hqz
      simp only at h2
      rw [h2]; exact hbz
    rw [hz] at h1
    have h3 := congrArg (fun d : ZoneDyn => { d with flank := (q.zone z).flank }) h1
    simp only at h3
    have h4 : ({ q.zone z with flank := (q.zone z).flank } : ZoneDyn) = q.zone z := rfl
    refine h4.symm.trans (h3.trans ?_)
    simp only [ZoneDyn.faulted, hs, false_and, if_false, hx]
    rcases hkeep with h | h
    · simp [h]
    · simp [h]
  · -- the other zones
    intro w hw hr'
    have h1 : (a.p.zone w).state ≠ .reserved := by rw [hzs w hw]; exact hr'
    have hb := kt.zones w h1
    have hbs : (b.p.zone w).state ≠ .reserved := by
      have := congrArg ZoneDyn.state hb; simp only at this; rw [this]; exact h1
    have hqw := hRT.tracking.zones w (by rw [hez]; exact hbs)
    rw [hez] at hqw
    have h2 := congrArg (fun d : ZoneDyn => { d with flank := (a.p.zone w).flank }) hqw
    simp only at h2
    rw [hb, hzs w hw] at h2
    exact h2
  · -- the train
    have h1 := htrain x
    have h2 := kt.trains x
    rw [hetr, if_pos rfl] at h1
    have h3 : { q.train x with reserved := (p.train x).reserved, state := (p.train x).state } =
        ({ b.p.train x with reserved := (p.train x).reserved, state := (p.train x).state } : TrainRec) := by
      have := congrArg (fun d : TrainRec => { d with reserved := (p.train x).reserved, state := (p.train x).state }) h1
      exact this
    have h4 : ({ b.p.train x with reserved := (p.train x).reserved, state := (p.train x).state } : TrainRec) =
        { a.p.train x with reserved := (p.train x).reserved, state := (p.train x).state } := by
      have := congrArg (fun d : TrainRec => { d with reserved := (p.train x).reserved, state := (p.train x).state }) h2
      exact this
    rw [htx] at h4
    exact h3.trans h4
  · -- the other trains
    intro y hy
    have h1 := htrain y
    rw [hetr, if_neg hy] at h1
    have h2 := kt.trains y
    rw [hts y hy] at h2
    have := congrArg (fun d : TrainRec => { d with reserved := (p.train y).reserved }) h1
    simp only at this
    rw [this]; exact h2
  · -- the claims
    have har : a.p.rs = p.rs := by rw [hpart]
    have hps : a.p.store = p.store := by rw [hpart]
    have hbst : b.p.store = p.store := (Part.outer_store ko).trans hps
    have hbase : (p.zoneFaulted z x reason).ClaimsFreed a.p [] := by
      refine .of_same (fun w => ?_) (fun y => ?_) (fun i => ?_)
      · by_cases hw : w = z
        · subst hw
          rw [hz]
          rcases hkeep with h | h <;> simp [Part.zoneFaulted, ZoneDyn.faulted, hs, hx, h]
        · simp [hzs w hw, Part.zoneFaulted, Part.modZone_zone, hw]
      · by_cases hy : y = x
        · subst hy; rw [htx]; rcases hkeep with h | h <;> simp [Part.zoneFaulted, h]
        · simp [hts y hy, Part.zoneFaulted, Part.modTrain_train, hy]
      · simp only [Part.switch, har]; rfl
    have hbs : (b.p.train x).state = (p.train x).state := by
      have h2 := congrArg TrainRec.state (kt.trains x)
      rw [htx] at h2; exact h2
    have hset : a.p.isSetting z = p.isSetting z := by unfold Part.isSetting; rw [har]
    have hstk : a.p.stacked = p.stacked := by unfold Part.stacked; rw [har]
    rw [har, hset, hstk] at kf
    rw [hset, hstk] at ks
    have h1 := ((hbase.trans kf hps).withState x (q.train x).state).trans
      (.of_same (q := e.p) (fun w => hez w) (fun y => ?_) (fun i => by rw [← he]; rfl)) hbst
    have h2 := h1.trans hRT.claims hstore
    · refine h2.perm ?_
      have h3 : e.p.heldAllClaims =
          ((p.rs.routes.filter (fun r => !(r.zone == z))).filter (fun r => r.phase == .set)).flatMap ActiveRoute.claims ++
            (if p.isSetting z then [] else p.stacked) := by
        have h4 : e.p.rs.routes = b.p.rs.routes := by rw [← he]; rfl
        have h5 : e.p.stacked = b.p.stacked := by rw [← he]; rfl
        unfold Part.heldAllClaims
        rw [h4, h5, kr, ks, har]; rfl
      rw [h3]
      unfold Part.faultClaims
      have hp := (claims_twice_perm p.rs.routes (fun r => r.zone == z) (fun r => r.phase == .set)).append_right p.stacked
      refine List.Perm.trans ?_ hp
      simp only [List.nil_append, List.append_nil, List.append_assoc]
      refine List.Perm.append_left _ ?_
      split
      · simp only [List.append_nil]; exact List.perm_append_comm
      · exact List.Perm.refl _
    · rw [hetr, Part.modTrain_train, hxs]
      by_cases hy : y = x
      · subst hy; rw [if_pos rfl, if_pos rfl, hbs]
      · rw [if_neg hy, if_neg hy]
  · -- the routes
    have h1 : e.p.rs.routes = b.p.rs.routes := by rw [← he]; rfl
    have h2 : a.p.rs = p.rs := by rw [hpart]
    rw [hRT.routes, h1, kr, h2, List.filter_filter]
    congr 1; funext r; exact Bool.and_comm _ _
  · -- the devices
    intro w
    have h1 : e.p.device w = b.p.device w := by rw [← he]; rfl
    rw [hRT.devices, h1, kdv w]; simp only [Part.device, had]
  · -- the records
    have h1 : e.p.mgmt = p.mgmt.queueEvent t (some z) (some x) (.trackingFault reason) := by
      rw [← he]
      show (b.p.queueEvent _ _ _ _).mgmt = _
      simp only [Part.queueEvent, Part.modMgmt, km, ham, hx]
    rw [hRT.records]
    simp only [Part.mgmtAfterRaise, hmc, hring, h1]
  · rw [hRT.ring, hring, hmc]; simp only [Part.periods, hstore]
  · exact hRT.lines.trans (Part.outer_lines hout)
  · exact hRT.store.trans hstore
  · exact hRT.classifier.trans (Part.outer_cls hout)
  · have : e.p.dsp = b.p.dsp := by rw [← he]; rfl
    rw [hRT.dispatch, this, kd, hpart]
  · have : e.p.cnt = b.p.cnt := by rw [← he]; rfl
    rw [hRT.counters, this, kc, hpart]

end Sys2Proof.Machine
end

