-- ==== Sys2Proof/Tests/Slice0.lean ====
section
/-! SUPPORT. Small tests: the smoke test of well-formedness, one step of each command on a small circuit, and for every
statement of Certificates/Slice0/Obligations.lean states and operands that meet the hypotheses of each of its clauses, at
the ends of their ranges where they have ends. -/

namespace Sys2Proof.Tests

open Sys2Proof Sys2Proof.Machine

-- A test that the kernel evaluates holds a thread while the kernel works off what stands before it: one at a time.
set_option Elab.async false

/-! ## A small circuit -/

/-- A zone: hold node `h`, TRAP_A and TRAP_B on node `n`, CLEAR on node `c`. -/
def zoneOn (kind : ZoneKind) (h n c : NodeId) (succ : ZoneId) (ready : List SensorRef) : ZoneRec :=
  { kind := kind, inService := true, passThrough := false, holdNode := h, holdCh := 0, openFb := 0, closedFb := 1
    trapA := ⟨n, 0⟩, trapB := some ⟨n, 1⟩, trapGap := 1000, stop := ⟨h, 2⟩, clear := ⟨c, 4⟩, vMin := 500, vRef := 1500
    vMax := 3000, tMin := 3000, tMax := 12000, tClear := 8000, fbLimit := 600, succA := succ, succB := none
    rule := .fixedA, ready := ready }

/-- Z1 is a STATION with one ready input. -/
def station : ZoneRec := zoneOn .station 10 30 31 2 [⟨44, 0⟩]

/-- Z2 is a BLOCK. -/
def block : ZoneRec := zoneOn .block 11 31 30 1 []

/-- The switch of node 51. -/
def switch : SwitchRec := { node := 50, posCh := 0, lockA := 0, lockB := 1, inService := true }

/-- Z1 and Z2 in a ring, with a switch on the way out of Z1, T1 placed in Z1, and one e-stop input. -/
def store : Store :=
  { Store.erased with
    nodes := (((((((Store.erased.nodes.set 10 (some .hold)).set 11 (some .hold)).set 30 (some .sensor)).set 31
      (some .sensor)).set 44 (some .stationIo)).set 45 (some .stationIo)).set 50 (some .switch)).set 59 (some .free)
    zones := (Store.erased.zones.set 1 (some station)).set 2 (some block)
    routes := (Store.erased.routes.set 0 (some ⟨1, .a, [.reserve 2, .switch 50 .a]⟩)).set 1
      (some ⟨2, .a, [.reserve 1]⟩)
    switches := Store.erased.switches.set 1 (some switch)
    placement := Store.erased.placement.set 0 (some ⟨0, 1⟩)
    estops := Store.erased.estops.set 0 (some ⟨45, 1⟩) }

/-- In CONFIG with the circuit loaded: both input ports are receiving, the devices are closed, Z1's STOP is active. -/
def loaded : Part :=
  let p := Part.afterReset .powerOn 5 false false
  { p with
    store := store
    cls := { p.cls with
      levels := ((((((p.cls.levels.set 10 (some 6)).set 11 (some 2)).set 30 (some 0)).set 31 (some 0)).set 44
        (some 1)).set 45 (some 0)).set 50 (some 1) }
    ring :=
      { p.ring with cIn := .receiving, fIn := .receiving, synced := true, ringTime := 1000, linkTimer := some 9000
                    silenceTimer := some 9000 } }

/-- A part in another mode. -/
def inMode (m : Mode) (p : Part) : Part := { p with mc := { p.mc with mode := m, healthy := m.running } }

/-- A part with its zones Z1 and Z2 and its train T1 as given. -/
def track (z1 z2 : ZoneDyn) (t : TrainRec) (p : Part) : Part :=
  { p with trk := { zones := (p.trk.zones.set 1 z1).set 2 z2, trains := p.trk.trains.set 0 t } }

/-- A zone in a state, with T1 or empty. -/
def zoneIn (state : ZoneState) (occupied : Bool) : ZoneDyn :=
  { ZoneDyn.reset with state := state, occupant := if occupied then some 0 else none, epoch := 1 }

/-- T1 present with its head in a zone. -/
def headIn (z : ZoneId) : TrainRec := { TrainRec.reset with state := .present, head := some z }

/-- The part after an ARM: T1 HELD in Z1, Z2 FREE, the switch in service. -/
def armed : Part :=
  let p := track (zoneIn .held true) (zoneIn .free false) (headIn 1) (inMode .stopped loaded)
  { p with rs := { p.rs with switches := p.rs.switches.set 1 { SwitchDyn.reset with inService := true } } }

/-- RUN_AUTO with the same ride. -/
def running : Part := inMode .runAuto armed

/-- MAINT with the key, after a successful QUERY_ZONE of Z1. -/
def maint : Part :=
  let p := inMode .maint armed
  { p with lines := { p.lines with maintKey := true }
           mgmt := { p.mgmt with precedence := some { code := 0x0B, zone := some 1, success := true } } }

/-- The route out of Z1 for T1. -/
def routeOut (phase : Phase) : ActiveRoute :=
  { zone := 1, train := 0, branch := .a, succ := 2, locks := [], phase := phase }

/-- T1 is on its way out of Z1, and Z2 is RESERVED for it. -/
def leaving : Part :=
  let p := track { zoneIn .releasing true with deadline := some 900, releaseTimer := some 900 } (zoneIn .reserved true)
    { headIn 1 with reserved := some 2 } running
  { p with rs := { p.rs with routes := [routeOut .committed] }
           devices := p.devices.set 1 { DeviceRec.reset with permit := .opened } }

/-- T1 is MOVING in Z2 since 400, its trap pending. -/
def moving : Part :=
  track (zoneIn .free false)
    { zoneIn .moving true with entryTime := some 400, trap := .pending, trapExpiry := some 800, deadline := some 900
                               transitExpiry := some 1000 }
    (headIn 2) running

/-- A request for Z1 whose refusal expiry is due. -/
def request : Request :=
  { zone := 1, train := 0, origin := .level, posted := 700, reported := false, refusal := some 800 }

/-- RUN_AUTO with a request for Z1 waiting. -/
def waiting : Part := { running with rs := { running.rs with requests := [request] } }

/-- RUN_AUTO with the request for Z1 being set, its claim of the switch waiting for the lock since before 900. -/
def setting : Part :=
  let p := track (zoneIn .held true) (zoneIn .reserved true) { headIn 1 with reserved := some 2 } waiting
  { p with rs :=
      { p.rs with setting := some { zone := 1, train := 0, origin := .level, branch := .a, index := 1 }
                  stack := [.switch 50 .a, .reserve 2], timer := some 900
                  switches := p.rs.switches.set 1 { commanded := some .a, holders := 1, inService := true, lockLost := false } } }

/-- A part with frames waiting for F-out. -/
def downstream (fs : List Frame) (p : Part) : Part := { p with ring := { p.ring with down := fs } }

/-- A COMMAND with the flags 0. -/
def command (dest hi lo : Byte) : Frame := { dest := dest, src := 0, ftype := 2, payload := [0, hi, lo] }

/-- A CYCLE_START. -/
def cycle (t : RingTime) : Frame := { dest := 63, src := 0, ftype := 1, payload := be32 t }

/-- A report of node 32 with one rising TRAP_A edge of Z2 at 990. -/
def entry : Frame := { dest := 0, src := 32, ftype := 3, payload := [0, 1, 1, 1, 0x80] ++ be32 990 }

/-- What `entry` carries. -/
def entryReport : Report := { node := 31, levels := 1, counter := 1, edges := [{ ch := 0, rising := true, time := 990 }] }

/-- A report of node `n` without edges: its levels, and the edge counter 0. -/
def reading (n : NodeId) (levels : Byte) : Frame :=
  { dest := 0, src := nodeByte n, ftype := 3, payload := [0, levels, 0, 0] }

/-- What `reading` carries. -/
def readingReport (n : NodeId) (levels : BitVec 16) : Report := { node := n, levels := levels, counter := 0, edges := [] }

/-- A report of node `n` with one edge, at 990: its levels, and the channel and direction of the edge. -/
def edged (n : NodeId) (levels edge : Byte) : Frame :=
  { dest := 0, src := nodeByte n, ftype := 3, payload := [0, levels, 0, 1, edge] ++ be32 990 }

/-- What `edged` carries. -/
def edgedReport (n : NodeId) (levels : BitVec 16) (ch : Channel) (rising : Bool) : Report :=
  { node := n, levels := levels, counter := 0, edges := [{ ch := ch, rising := rising, time := 990 }] }

/-- A frame that is neither a CYCLE_START, a COMMAND, a report nor a request. -/
def other : Frame := { dest := 5, src := 1, ftype := 9, payload := [] }

/-- `n` frames. -/
def frames (n : Nat) : List Frame := List.replicate n other

/-- A state with nothing waiting. -/
def st (p : Part) : State := { pending := [], part := p }

/-- The part after a command. -/
def after (c : Instr) (p : Part) : Part :=
  match exec c (st p) with
  | .next t => t.part
  | .fault f => nomatch f
  | .refused _ => p

/-- The result of the last response of a part. -/
def answered (p : Part) : Option Result := p.mgmt.responses.getLast?.map Response.result

/-! ## Well-formedness: a term that each check refuses, beside one that it takes -/

theorem test_wf_frameDrop :
    (Instr.frameDrop .cIn []).wf = true ∧ (Instr.frameDrop .cIn (frameOnLine other)).wf = false := by decide +kernel
theorem test_wf_cycleStart :
    (Instr.cycleStart (cycle 7)).wf = true ∧ (Instr.cycleStart other).wf = false ∧
      (Instr.cycleStart { cycle 7 with payload := [0, 0, 7] }).wf = false := by decide
theorem test_wf_commandFrame :
    (Instr.commandFrame (command 11 0 1)).wf = true ∧ (Instr.commandFrame other).wf = false ∧
      (Instr.commandFrame { command 11 0 1 with payload := List.replicate 49 0 }).wf = false := by decide
theorem test_wf_cinFrameForward :
    (Instr.cinFrameForward other).wf = true ∧ (Instr.cinFrameForward (cycle 7)).wf = false ∧
      (Instr.cinFrameForward (command 11 0 1)).wf = false ∧
      (Instr.cinFrameForward { dest := 62, src := 0, ftype := 4, payload := [0, 1] }).wf = false := by decide
theorem test_wf_reportFrame :
    (Instr.reportFrame entry).wf = true ∧ (Instr.reportFrame { entry with src := 0 }).wf = false ∧
      (Instr.reportFrame { entry with payload := [0, 1, 1, 2, 0x80] ++ be32 990 }).wf = false := by decide
theorem test_wf_finFrameForward :
    (Instr.finFrameForward other).wf = true ∧ (Instr.finFrameForward entry).wf = false := by decide
theorem test_wf_setMode :
    (Instr.setModeRun 0 [2]).wf = true ∧ (Instr.setModeRun 0 [4]).wf = false ∧ (Instr.setModeRun 0 [0]).wf = false ∧
      (Instr.setModeMaint 0 [4]).wf = true ∧ (Instr.setModeMaint 0 [2]).wf = false ∧
      (Instr.setModeConfig 0 [0]).wf = true ∧ (Instr.setModeConfig 0 [4]).wf = false := by decide
theorem test_wf_reconcile :
    (Instr.reconcilePlace 0 [1, 0, 1]).wf = true ∧ (Instr.reconcilePlace 0 [1, 1]).wf = false ∧
      (Instr.reconcileRemove 0 [1, 1]).wf = true ∧ (Instr.reconcileRemove 0 [1, 2]).wf = false ∧
      (Instr.reconcileClear 0 [1, 2]).wf = true ∧ (Instr.reconcileClear 0 [1, 1]).wf = false := by decide
theorem test_wf_unknownRequest :
    (Instr.unknownRequest 0 0 []).wf = true ∧ (Instr.unknownRequest 0 0x16 []).wf = true ∧
      (Instr.unknownRequest 0 1 []).wf = false ∧ (Instr.unknownRequest 0 0x15 []).wf = false := by decide
theorem test_wf_malformed :
    (Instr.malformedMgmtRequest [7]).wf = true ∧ (Instr.malformedMgmtRequest [7, 1]).wf = false := by decide
theorem test_wf_arguments :
    (Instr.tableWrite 0 (List.replicate 46 0)).wf = true ∧ (Instr.tableWrite 0 (List.replicate 47 0)).wf = false ∧
      (Instr.responseFull 0 1 (List.replicate 47 0)).wf = false := by decide

/-! ## Commands of the ports -/

theorem test_frameStart : (after (.frameStart .cIn) { running with ring := { running.ring with cIn := .idle } }).ring.cIn =
    .receiving := by decide
theorem test_fragmentTimeout : (after (.fragmentTimeout .fIn) running).cnt.fIn.fragment = 1 := by decide
theorem test_frameDrop :
    (after (.frameDrop .cIn [{ data := 1, parity := true }]) loaded).cnt.cIn.parity = 1 ∧
      (after (.frameDrop .cIn []) loaded).mgmt.loadTainted = true := by decide
theorem test_cycleStart :
    (after (.cycleStart (cycle 1050)) running).ring.ringTime = 1050 ∧
      (after (.cycleStart (cycle 2000)) running).mc.causes = [.time] := by decide +kernel
theorem test_commandFrame : (after (.commandFrame (command 11 0 1)) running).ring.down = [command 11 0 1] := by decide
theorem test_cinFrameForward : (after (.cinFrameForward other) running).ring.down = [other] := by decide
theorem test_reportFrame :
    ((after (.reportFrame entry) leaving).zone 2).state = .moving ∧
      ((after (.reportFrame entry) running).zone 2).reason = some .unexpectedEntry := by decide +kernel
theorem test_finFrameForward : (after (.finFrameForward other) running).ring.up = [other] := by decide
theorem test_commandTransmit_hold :
    (after .commandTransmit (downstream [command 11 0 1] waiting)).ring.fOut =
      some { dest := 11, src := 0, ftype := 2, payload := [2, 0, 0] } := by decide +kernel
theorem test_commandTransmit_release :
    (after .commandTransmit (downstream [command 11 0 1] leaving)).ring.fOut = some (command 11 0 1) := by decide

/-- `running` with the ALTERNATE rule in Z1, which has no successor B. -/
def alternating : Part :=
  { running with store :=
      { running.store with zones := running.store.zones.set 1 (some { station with rule := .alternate }) } }

/-- The rule is used only where successor B is present: the last branch stays (R5). -/
theorem test_commandTransmit_sets :
    (after .commandTransmit (downstream [command 11 0 1] alternating)).rs.routes =
        [{ routeOut .set with locks := [.switch 50 .a] }] ∧
      ((after .commandTransmit (downstream [command 11 0 1] alternating)).zone 1).lastBranch = .b := by decide +kernel
theorem test_broadcastHoldFrame :
    ((after .broadcastHoldFrame { running with ring := { running.ring with bcastPending := true } }).device 1).forwarded =
      some .hold := by decide +kernel
theorem test_foutFrameTransmit : (after .foutFrameTransmit (downstream [other] running)).ring.fOut = some other := by
  decide
theorem test_linkFaultFrame :
    ((after .linkFaultFrame { running with ring := { running.ring with linkFaultPending := true } }).ring.cOut.map
      (fun c => c.frame.payload)) = some [0, 0, 0, 3, 0xE8, 0, 0, 0, 0, 0, 0] := by decide
theorem test_mgmtResponse :
    ((after .mgmtResponse (after (.reset 9 []) running)).ring.cOut) =
      some { frame := { dest := 0, src := 62, ftype := 5, payload := [9, 0x15, 0] }, isReset := true } := by decide
theorem test_coutUpstreamTransmit :
    (after .coutUpstreamTransmit { running with ring := { running.ring with up := [other] } }).cnt.cOutForwarded = 1 := by
  decide

/-- A part that reports, with one ZONE_CLEARED record of Z1 and T1 in its queue. -/
def reporting : Part :=
  { running with mgmt :=
      { running.mgmt with
        reporting := { batch := .four, mask := ⟨true, true, true⟩ }
        events := [{ seq := 5, time := 7, zone := some 1, train := some 0, body := .zoneCleared }] } }

theorem test_eventFrame :
    (after .eventFrame reporting).ring.cOut.map (fun c => c.frame.payload) =
      some [0, 0x20, 0x22, 0, 5, 0, 0, 0, 7, 0, 0, 0] := by decide
theorem test_resetResponseSent :
    (after .resetResponseSent (after .mgmtResponse (after (.reset 9 []) running))).lines.resetCause = .resetRequest := by
  decide
theorem test_transmissionEnd :
    (after (.transmissionEnd .fOut)
      { running with ring := { running.ring with fOut := some other, down := [other] } }).cnt.fOut.forwarded = 1 := by decide
theorem test_lineIdleAfterReset : (after (.lineIdleAfterReset .fIn) State.reset.part).ring.fIn = .idle := by decide

/-! ## Commands of time -/

theorem test_ringTimeTick : (after .ringTimeTick running).ring.ringTime = 1001 := by decide +kernel
theorem test_trapExpiry : ((after (.trapExpiry 2) moving).zone 2).deadline = some 120900 := by decide
theorem test_transitExpiry :
    ((after (.transitExpiry 2) (after (.trapExpiry 2) moving)).zone 2).state = .moving ∧
      (after (.transitExpiry 2) moving) = moving := by decide +kernel
theorem test_releaseTimer :
    ((after (.releaseTimer 1) leaving).zone 1).reason = some .stuck ∧ (after (.releaseTimer 1) leaving).mc.mode = .stopped := by
  decide +kernel
theorem test_gapExpiry :
    (after .gapExpiry { running with dsp := { last := some 1, gap := .running, expiry := some 999 } }).dsp.gap = .met := by
  decide
theorem test_switchTimer :
    ((after .switchTimer setting).switch 1).inService = false ∧ ((after .switchTimer setting).switch 1).holders = 0 ∧
      ((after .switchTimer setting).zone 2).state = .free ∧ ((after .switchTimer setting).train 0).reserved = none := by
  decide +kernel

/-- RUN_AUTO with the supervision timer of Z1's device due. -/
def supervised : Part :=
  let due : DeviceRec := { DeviceRec.reset with forwarded := some .release, sup := .awaiting, timer := some 900 }
  { running with devices := running.devices.set 1 due }

theorem test_supervisionTimer :
    ((after (.supervisionTimer 1) supervised).device 1).latch = true ∧
      (after (.supervisionTimer 1) supervised).mc.causes = [.device] := by decide +kernel
theorem test_refusalExpiry :
    ((after (.refusalExpiry 1) { waiting with cls := { waiting.cls with levels := waiting.cls.levels.set 44 (some 0) } }).rs.requests) =
      [{ request with reported := true, refusal := none }] := by decide
theorem test_broadcastRepetition :
    (after .broadcastRepetition
      { running with mc := { running.mc with latch := true }, ring := { running.ring with bcastTimer := some 999 } }).ring.bcastTimer =
      some 1100 := by decide
theorem test_silenceTimer :
    (after .silenceTimer { running with ring := { running.ring with silenceTimer := some 1000 } }).mc.first = some .silence := by
  decide
theorem test_fieldLinkTimer :
    (after .fieldLinkTimer { running with ring := { running.ring with linkTimer := some 1000 } }).ring.linkFaultCount = 1 := by
  decide
theorem test_linkFaultRepetition :
    (after .linkFaultRepetition
      { running with ring := { running.ring with linkDown := true, repTimer := some 1000, linkFaultCount := 4 } }).ring.linkFaultCount =
      5 := by decide

/-! ## Lines, supply and resets -/

theorem test_maintKeyChange : (after (.maintKeyChange false) maint).mc.causes = [.key] := by decide
theorem test_powerOn : (after .powerOn running).lines.inReset = true := by decide
theorem test_resetLine : (after .resetLine running).mc.healthy = false := by decide
theorem test_supplyLow : (after .supplyLow running).lines.resetCause = .supplyLow := by decide
theorem test_supplyWarnBegin : (after .supplyWarnBegin running).mc.causes = [.supply] := by decide
theorem test_supplyWarnEnd :
    (after .supplyWarnEnd { running with lines := { running.lines with supplyWarn := true } }).lines.supplyWarn = false := by
  decide
theorem test_resetEnd : (after (.resetEnd false) (after .resetLine running)).mc.mode = .config := by decide

/-! ## Requests -/

theorem test_identify :
    (after (.identify 9 []) running).mgmt.responses.map (fun r => (r.data.take 3, r.data.drop 4)) =
      [([0x0B, 0x12, 0xCA], [0, 2, 1, 0, 0, 3, 0xE8, 0, 0, 0])] := by decide
theorem test_status : answered (after (.status 9 []) running) = some .success := by decide
theorem test_clearFlags :
    (after (.clearFlags 9 [1]) { running with mgmt := { running.mgmt with frameError := true } }).mgmt.frameError = false := by
  decide
theorem test_setModeRun : (after (.setModeRun 9 [3]) running).mc.mode = .runManual := by decide
theorem test_setModeMaint : answered (after (.setModeMaint 9 [4]) armed) = some .noKey := by decide
theorem test_setModeConfig : (after (.setModeConfig 9 [0]) armed).mc.mode = .config := by decide +kernel
theorem test_arm :
    (after (.arm 9 []) loaded).mc.mode = .stopped ∧ ((after (.arm 9 []) loaded).zone 1).occupant = some 0 := by decide +kernel
theorem test_restore : (after (.restore 9 [0]) armed).mc.mode = .runAuto := by decide
theorem test_stop : (after (.stop 9 []) running).mc.causes = [.stopRequest] := by decide
theorem test_tableWrite :
    (after (.tableWrite 9 [1, 61, 1, 2]) loaded).store.nodes[(60 : NodeId)] = some .sensor ∧
      answered (after (.tableWrite 9 [1, 62, 1, 2]) loaded) = some .badValue := by decide
theorem test_tableRead : (after (.tableRead 9 [1, 11]) loaded).mgmt.responses.map (fun r => r.data) = [[1, 11, 1, 3]] := by
  decide
theorem test_tablesErase : (after (.tablesErase 9 []) loaded).store = Store.erased := by decide
theorem test_queryZone : (after (.queryZone 9 [1]) armed).mgmt.precedence = some ⟨0x0B, some 1, true⟩ := by decide
theorem test_queryTrain :
    (after (.queryTrain 9 [1]) armed).mgmt.responses.map (fun r => r.data.take 4) = [[1, 1, 0xFF, 0xFF]] := by decide
theorem test_overrideRelease :
    ((after (.overrideRelease 9 [1, 0, 1]) maint).device 1).permit = .opened ∧
      (after (.overrideRelease 9 [1, 0, 2]) maint).mc.budget = 4 := by decide +kernel
theorem test_reconcilePlace :
    ((after (.reconcilePlace 9 [1, 0, 1]) (track (zoneIn .free false) (zoneIn .free false) TrainRec.reset armed)).zone 1).state =
      .held := by decide +kernel
theorem test_reconcileRemove :
    ((after (.reconcileRemove 9 [1, 1]) { armed with cls := loaded.cls }).zone 1).state = .held ∧
      ((after (.reconcileRemove 9 [1, 1])
        { armed with cls := { armed.cls with levels := armed.cls.levels.set 10 (some 0) } }).zone 1).state = .free := by decide +kernel
theorem test_reconcileClear :
    ((after (.reconcileClear 9 [2, 2])
      (track (zoneIn .held true) { zoneIn .fault false with reason := some .lost } (headIn 1) armed)).zone 2).state = .free := by
  decide
theorem test_setDivert : ((after (.setDivert 9 [1, 1]) armed).train 0).divert = true := by decide
theorem test_eventCtrl :
    (after (.eventCtrl 9 [4, 0xFF]) running).mgmt.setting = some { batch := .four, mask := ⟨true, true, true⟩ } := by decide
theorem test_countersRead :
    (after (.countersRead 9 [0]) running).mgmt.responses.map (fun r => r.data.length) = [32] := by decide
theorem test_countersClear : (after (.countersClear 9 []) running).cnt.cIn.received = 0 := by decide
theorem test_healthRead : answered (after (.healthRead 9 [1, 32]) running) = some .badValue := by decide
theorem test_healthReset : answered (after (.healthReset 9 [2, 8]) running) = some .success := by decide
theorem test_reset : (after (.reset 9 []) running).mgmt.resetPending = true := by decide
theorem test_unknownRequest : answered (after (.unknownRequest 9 0x16 []) running) = some .unknownRequest := by decide
theorem test_responseFull :
    (after (.responseFull 9 1 [])
      { running with mgmt := { running.mgmt with responses := List.replicate 8 ⟨0, 1, .success, []⟩ } }).cnt.cIn.responseFull =
      1 := by decide
theorem test_malformedMgmtRequest : (after (.malformedMgmtRequest [9]) maint).mgmt.precedence = none := by decide

/-! ## Witnesses: the hypotheses of the statements, met -/

/-- A part in reset. -/
def inReset : Part := running.beginReset .resetLine

/-- A part that has begun to send the RESET response. -/
def sendingReset : Part :=
  { running with ring := { running.ring with cOut := some { frame := other, isReset := true } } }

theorem witness_ResetEndRestoresTheResetValues :
    (st inReset).part.lines.inReset = true ∧ (st running).part.lines.inReset = false := by decide

theorem witness_ResetsBeginAndHoldThePart :
    (sendingReset.isLive = true ∧ sendingReset.ring.cOut = some { frame := other, isReset := true }) ∧
      running.ring.cOut = none ∧ inReset.lines.inReset = true ∧ Instr.ringTimeTick.actsInReset = false := by decide

/-- Both input ports IDLE, with the field link up and down. -/
def idle (down : Bool) : Part :=
  { running with ring := { running.ring with cIn := .idle, fIn := .idle, linkDown := down } }

theorem witness_SymbolsAndDropsMoveTheInputPorts_start :
    ((idle true).isLive = true ∧ (idle false).isLive = true) ∧ (idle true).ring.cIn = .idle ∧
      (idle false).ring.fIn = .idle ∧ (∀ port : InPort, State.reset.part.ring.rx port = .waitIdle) ∧
      (∀ port : InPort, running.ring.rx port ≠ .waitIdle ∧ (idle true).ring.rx port ≠ .waitIdle) := by
  refine ⟨by decide, by decide, by decide, fun port => ?_, fun port => ?_⟩ <;> cases port <;> decide

theorem witness_SymbolsAndDropsMoveTheInputPorts_drop :
    (∀ port : InPort, running.isLive = true ∧ running.hears port = true ∧ (idle true).hears port = false) ∧
      DroppedFor [] .lengthMismatch ∧ DroppedFor ([0, 0, 9, 48, 0, 0].map sendByte) .lengthMismatch ∧
      DroppedFor [{ data := 1, parity := true }] .parity ∧ DroppedFor ([0, 0, 0, 49].map sendByte) .lengthRange ∧
      DroppedFor ([0, 0, 9, 0, 0, 0].map sendByte) .crc := by
  refine ⟨fun port => ?_, by decide, by decide, by decide, by decide, by decide +kernel⟩
  cases port <;> decide

theorem witness_IntactFramesPassTheChecker : ({ other with payload := List.replicate 48 7 } : Frame).payload.length ≤ 48 := by
  decide

theorem witness_ForwardedFramesJoinTheirQueues :
    running.hears .cIn = true ∧ (command 11 0 1).isCycleStart = false ∧ (command 11 0 1).toManagement = false ∧
      running.hears .fIn = true ∧ other.isReport = false ∧ (frames 15).length < 16 ∧ 16 ≤ (frames 16).length := by decide

theorem witness_CycleStartSetsRingTime :
    running.hears .cIn = true ∧ (cycle 0xFFFFFFFF).ftype = typeCycleStart ∧ running.store.params.valid = true ∧
      cycleTimeOf (cycle 0xFFFFFFFF) = some 0xFFFFFFFF ∧ (downstream (frames 15) running).ring.down.length < 16 ∧
      16 ≤ (downstream (frames 16) running).ring.down.length := by decide

/-- The nearest steps of ring time, forward and back. -/
theorem witness_CycleStartSetsRingTime_step :
    running.hears .cIn = true ∧ running.ring.synced = true ∧ running.mc.mode ≠ .config ∧
      cycleTimeOf (cycle 1101) = some 1101 ∧ 100 < ((1101 : RingTime) - running.ring.ringTime).toNat ∧
      100 < (running.ring.ringTime - 1101).toNat ∧ cycleTimeOf (cycle 899) = some 899 ∧
      100 < ((899 : RingTime) - running.ring.ringTime).toNat ∧ 100 < (running.ring.ringTime - 899).toNat := by decide

/-- Nothing is due at the time that such a step takes over. -/
theorem witness_CycleStartSetsRingTime_raise :
    ({ running with ring :=
        { running.ring with
          ringTime := 1101, lastCycleStart := some 1101, silenceTimer := some (1101 + 2000)
          linkTimer := some (1101 + running.periods 2) } } : Part).nothingDue = true := by decide +kernel

/-- The farthest times that are no step, forward and back, a first CYCLE_START and one in CONFIG: nothing is due there. -/
theorem witness_CycleStartSetsRingTime_adopted :
    let adopted := fun (p : Part) (c : RingTime) =>
      ({ p with ring :=
          { p.ring with ringTime := c, synced := true, lastCycleStart := some c, silenceTimer := some (c + 2000) } } : Part)
    let again := fun (p : Part) => ({ p with ring := { p.ring with linkTimer := some (5000 + p.periods 2) } } : Part)
    (((1100 : RingTime) - running.ring.ringTime).toNat ≤ 100 ∧ (adopted running 1100).nothingDue = true) ∧
      ((running.ring.ringTime - (900 : RingTime)).toNat ≤ 100 ∧ (adopted running 900).nothingDue = true) ∧
      (State.reset.part.ring.synced = false ∧ (again (adopted running 5000)).nothingDue = true) ∧
      (loaded.ring.synced = true ∧ loaded.mc.mode = .config ∧ (again (adopted loaded 5000)).nothingDue = true) := by
  decide +kernel

/-- The next tick finds nothing due, and one that makes the gap expiry due. -/
theorem witness_RingTimeAdvancesAndCompares :
    running.isLive = true ∧
      ({ running with ring := { running.ring with ringTime := running.ring.ringTime + 1 } } : Part).nothingDue = true ∧
      isDue (running.ring.ringTime + 1) (some 1001) = true ∧ isDue running.ring.ringTime (some 1001) = false := by
  decide +kernel

/-- A part that passes what goes to unlisted nodes. -/
def passing (p : Part) : Part :=
  { p with store := { p.store with params := { p.store.params with unlisted := .pass } } }

/-- A frame that is no COMMAND, a COMMAND to a FREE node in CONFIG, one to a SENSOR node, and one to an unlisted node. -/
theorem witness_CommandsPassOrAreDroppedByTheFilter_pass :
    (downstream [other] running).foutFree = true ∧ other.ftype ≠ typeCommand ∧
      (commandOf (command 60 0 1)).isSome = true ∧ nodeOf (command 60 0 1).dest = some 59 ∧
      loaded.store.nodes[(59 : NodeId)] = some .free ∧ nodeOf (command 31 0 1).dest = some 30 ∧
      running.mc.mode ≠ .config ∧ running.store.nodes[(30 : NodeId)] = some .sensor ∧
      nodeOf (command 45 0 1).dest = some 44 ∧ running.store.nodes[(44 : NodeId)] = some .stationIo ∧
      nodeOf (command 61 0 1).dest = some 60 ∧ (passing running).store.nodes[(60 : NodeId)] = none ∧
      (passing running).store.params.unlisted = .pass := by decide

/-- The addresses at the ends of the field and beyond it, and an unlisted node under DROP. -/
theorem witness_CommandsPassOrAreDroppedByTheFilter_drop :
    (downstream [command 1 0 1] loaded).foutFree = true ∧ loaded.mc.mode = .config ∧
      nodeOf (command 1 0 1).dest = some 0 ∧ loaded.store.nodes[(0 : NodeId)] ≠ some .free ∧
      (command 63 0 1).dest.toNat % 64 = 63 ∧ commandOf { command 11 0 1 with payload := [0, 0] } = none ∧
      (command 0 0 1).dest.toNat % 64 = 0 ∧ (command 62 0 1).dest.toNat % 64 = 62 ∧ running.mc.mode ≠ .config ∧
      running.store.params.unlisted = .drop ∧ nodeOf (command 61 0 1).dest = some 60 ∧
      running.store.nodes[(60 : NodeId)] = none ∧
      commandOf (command 63 0 1) = some { flags := 0, outputs := 1 } ∧ (0 : Byte).getLsbD 0 = false := by decide

theorem witness_NoReleaseLeavesUnderAHoldPermit :
    (downstream [command 11 0xFF 0xFF] running).foutFree = true ∧ (command 11 0xFF 0xFF).ftype = typeCommand ∧
      commandOf (command 11 0xFF 0xFF) = some { flags := 0, outputs := 0xFFFF } ∧
      nodeOf (command 11 0xFF 0xFF).dest = some 10 ∧ running.mc.mode ≠ .config ∧
      running.store.nodes[(10 : NodeId)] = some .hold ∧ running.store.zones[(1 : ZoneId)] = some station ∧
      station.holdNode = 10 ∧ station.holdCh = 0 ∧ (running.device 1).permit = .hold ∧
      (leaving.device 1).permit = .opened := by decide

/-- MAINT with the switch commanded and free. -/
def maintSwitch (commanded : Option Branch) (holders : Nat) (p : Part) : Part :=
  let d : SwitchDyn := { commanded := commanded, holders := holders, inService := true, lockLost := false }
  { p with rs := { p.rs with switches := p.rs.switches.set 1 d } }

theorem witness_SwitchCommandsCarryTheCommandedPosition :
    (downstream [command 51 0 1] setting).foutFree = true ∧ commandOf (command 51 0 1) = some ⟨0, 1⟩ ∧
      nodeOf (command 51 0 1).dest = some 50 ∧ setting.mc.mode ≠ .config ∧
      setting.store.nodes[(50 : NodeId)] = some .switch ∧ setting.switchOf 50 = some 1 ∧
      setting.store.switches[(1 : SwitchId)] = some switch ∧ setting.mc.mode ≠ .maint ∧
      (setting.switch 1).commanded = some .a ∧ (running.switch 1).commanded = none ∧ maint.mc.mode = .maint ∧
      (maint.switch 1).holders = 0 ∧ maint.rs.requests = [] ∧
      ((maintSwitch (some .b) 1 maint).switch 1).commanded = some .b ∧
      ((maintSwitch (some .b) 1 maint).switch 1).holders ≠ 0 := by decide

theorem witness_TheBroadcastHoldFrameHoldsEveryDevice :
    running.isLive = true ∧ running.ring.fOut = none ∧
      ({ running with ring := { running.ring with bcastPending := true } } : Part).ring.bcastPending = true ∧
      running.store.zones[(1 : ZoneId)] = some station ∧ running.store.zones[(3 : ZoneId)] = none := by decide

theorem witness_CoutTakesItsSourcesInOrder :
    running.isLive = true ∧ running.ring.cOut = none ∧ running.ring.linkFaultPending = false ∧
      (after (.reset 9 []) running).mgmt.responses = [⟨9, 0x15, .success, []⟩] ∧ running.mgmt.responses = [] ∧
      (after (.finFrameForward other) running).ring.up = [other] ∧ running.ring.up = [] ∧
      reporting.ring.linkFaultPending = false ∧ reporting.mgmt.responses = [] ∧ reporting.ring.up = [] ∧
      reporting.mgmt.reporting.batch ≠ .off ∧ reporting.mgmt.events ≠ [] ∧
      ({ reporting with ring := { reporting.ring with linkFaultPending := true } } : Part).ring.linkFaultPending = true ∧
      running.mgmt.reporting.batch = .off ∧ sendingReset.ring.cOut.isSome = true := by decide

/-- A part that transmits on both output ports. -/
def transmitting (p : Part) : Part :=
  { p with ring := { p.ring with fOut := some other, cOut := some { frame := other, isReset := false } } }

theorem witness_TransmissionEndFreesThePort :
    (transmitting running).isLive = true ∧ (transmitting running).ring.fOut.isSome = true ∧
      (transmitting running).ring.bcastPending = false ∧ (transmitting running).ring.down = [] ∧
      (transmitting (downstream [other] running)).ring.down = [other] ∧
      (transmitting running).ring.cOut = some { frame := other, isReset := false } ∧ running.mgmt.reporting.batch = .off ∧
      (after (.reset 9 []) running).mgmt.responses ≠ [] ∧
      (after (.finFrameForward other) running).mgmt.responses = [] ∧
      (after (.finFrameForward other) running).ring.up ≠ [] ∧ running.ring.fOut = none ∧ running.ring.cOut = none := by
  decide

/-- `moving` with the transit expiry as the earlier one, where the trap expiry is still due. -/
theorem witness_TrapExpiryStretchesTheLimit :
    moving.isLive = true ∧ (moving.zone 2).trapExpiry = some 800 ∧ moving.store.zones[(2 : ZoneId)] = some block ∧
      (moving.zone 2).state = .moving ∧ (moving.zone 2).trap = .pending ∧ atOrAfter moving.ring.ringTime 800 = true ∧
      (moving.zone 2).transitExpiry = some 1000 ∧ atOrAfter (1000 : RingTime) 800 = true ∧
      atOrAfter (0 : RingTime) 800 = false := by decide

/-- T1 MOVING in Z2 past its transit expiry, its trap done. -/
def overdue : Part :=
  track (zoneIn .free false)
    { zoneIn .moving true with entryTime := some 400, trap := .done, deadline := some 900, transitExpiry := some 1000 }
    (headIn 2) running

theorem witness_ExpiredTransitsAndReleasesAreFaulted :
    overdue.isLive = true ∧ overdue.mc.mode ≠ .config ∧ (overdue.zone 2).occupant = some 0 ∧
      (overdue.zone 2).state = .moving ∧ (overdue.zone 2).transitExpiry = some 1000 ∧
      atOrAfter overdue.ring.ringTime 1000 = true ∧ (overdue.zone 2).trapExpiry = none ∧
      atOrAfter (999 : RingTime) 1000 = false ∧ (leaving.zone 1).occupant = some 0 ∧
      (leaving.zone 1).state = .releasing ∧ (leaving.zone 1).releaseTimer = some 900 ∧
      atOrAfter leaving.ring.ringTime 900 = true ∧ atOrAfter (899 : RingTime) 900 = false := by decide

/-- The gap expiry due at this very tick, and one tick later. -/
def gapAt (t : RingTime) (p : Part) : Part := { p with dsp := { last := some 1, gap := .running, expiry := some t } }

theorem witness_GapAndRefusalExpiriesAct_gap :
    (gapAt 1000 setting).isLive = true ∧ isDue setting.ring.ringTime (gapAt 1000 setting).dsp.expiry = true ∧
      setting.rs.setting.isSome = true ∧ (∀ q ∈ (gapAt 1000 running).rs.requests, running.ready q = none) ∧
      isDue running.ring.ringTime (gapAt 1001 running).dsp.expiry = false := by decide

theorem witness_SwitchTimerTakesTheSwitchOutOfService :
    setting.isLive = true ∧
      setting.rs.setting = some { zone := 1, train := 0, origin := .level, branch := .a, index := 1 } ∧
      setting.rs.timer = some 900 ∧ atOrAfter setting.ring.ringTime 900 = true ∧
      setting.rs.stack = [.switch 50 .a, .reserve 2] ∧ setting.switchOf 50 = some 1 ∧
      (∀ q ∈ setting.rs.requests, q.zone = 1) := by decide

theorem witness_SupervisionTimerFaultsTheDevice :
    supervised.isLive = true ∧ supervised.mc.mode ≠ .config ∧ (supervised.device 1).timer = some 900 ∧
      supervised.store.zones[(1 : ZoneId)] = some station ∧ atOrAfter supervised.ring.ringTime 900 = true ∧
      (∀ w : ZoneId, w < 1 → isDue supervised.ring.ringTime (supervised.device w).timer = false) := by decide

/-- `waiting` with the ready input of Z1 inactive. -/
def notReady : Part := { waiting with cls := { waiting.cls with levels := waiting.cls.levels.set 44 (some 0) } }

theorem witness_GapAndRefusalExpiriesAct_refusal :
    waiting.isLive = true ∧ waiting.rs.requests.find? (fun r => r.zone == 1) = some request ∧
      request.refusal = some 800 ∧ waiting.store.zones[(1 : ZoneId)] = some station ∧
      atOrAfter waiting.ring.ringTime 800 = true ∧ isDue waiting.ring.ringTime waiting.dsp.expiry = false ∧
      setting.rs.setting.any (fun g => g.zone == 1) = true ∧ waiting.rs.setting.any (fun g => g.zone == 1) = false ∧
      notReady.firstInactive station = some 0 ∧ waiting.firstInactive station = none ∧ station.kind = .station ∧
      (gapAt 2000 waiting).dsp.last.isSome = true ∧ (gapAt 2000 waiting).dsp.gap = .running ∧
      waiting.dsp.last.isSome = false := by decide

theorem witness_RepetitionAndMonitorTimersAct_repeat :
    running.isLive = true ∧ isDue 1000 (some 1000) = true ∧ isDue 1000 (some 1001) = false ∧
      (after (.supplyWarnBegin) running).mc.latch = true ∧
      (after (.supplyWarnBegin) running).ring.bcastTimer = some 1100 := by decide

theorem witness_RepetitionAndMonitorTimersAct_monitor :
    running.isLive = true ∧ atOrAfter (9000 : RingTime) 9000 = true ∧ running.ring.silenceTimer = some 9000 ∧
      loaded.mc.mode = .config ∧ running.mc.mode ≠ .config ∧ running.ring.linkTimer = some 9000 := by decide

theorem witness_TheKeyAndTheSupplyRaiseTheirCauses :
    maint.isLive = true ∧ maint.mc.mode = .maint ∧ maint.lines.maintKey = true ∧ running.mc.mode ≠ .maint ∧
      running.isLive = true ∧ running.lines.supplyWarn = false ∧ loaded.lines.supplyWarn = false ∧
      loaded.mc.mode = .config ∧ running.mc.mode ≠ .config ∧
      (after .supplyWarnBegin running).lines.supplyWarn = true := by decide

theorem witness_QueriesReportAndChangeNothingElse :
    running.takesRequest = true ∧ slotOf 1 61 = some (.node 60) ∧ slotOf 2 31 = some (.zone 31) ∧
      slotOf 3 63 = some (.route 63) ∧ slotOf 7 0 = some .params ∧ portOf 0 = some .cIn ∧ portOf 3 = some .cOut ∧
      healthItemOf 0 61 = .ok (.node 60) ∧ healthItemOf 1 31 = .ok (.device 31) ∧ healthItemOf 2 8 = .ok (.train 7) := by
  refine ⟨by decide, by decide, by decide, by decide, by decide, by decide, by decide, rfl, rfl, rfl⟩

/-- A part whose response queue holds `n` responses. -/
def answering (n : Nat) : Part :=
  { running with mgmt := { running.mgmt with responses := List.replicate n ⟨0, 1, .success, []⟩ } }

theorem witness_RequestsNotCarriedOutChangeNothing :
    running.hears .cIn = true ∧
      ({ running with mgmt := { running.mgmt with resetPending := true } } : Part).mgmt.resetPending = true ∧
      (answering 8).mgmt.resetPending = false ∧ 8 ≤ (answering 8).mgmt.responses.length ∧
      (answering 7).takesRequest = true ∧ ([9] : List Byte).length ≤ 1 ∧ 0x15 < (0x16 : Byte).toNat ∧
      ([1] : List Byte).length < 2 ∧ ([1, 2] : List Byte).length < 3 ∧
      32 ≤ (32 : Byte).toNat ∧ 8 < (9 : Byte).toNat ∧ slotOf 2 32 = none ∧ slotOf 8 0 = none ∧ 2 < (3 : Byte).toNat ∧
      nodeOf 0 = none ∧ nodeOf 62 = none := by decide

theorem witness_ClearFlagsClearsTheStickyFlags :
    running.takesRequest = true ∧ (8 : Byte).getLsbD 3 = true ∧ (0xF7 : Byte).getLsbD 3 = false := by decide

theorem witness_SetModeChangesTheRunningModeOrEntersMaint_run :
    running.takesRequest = true ∧ (running.frameTaken .cIn).mc.mode = .runAuto ∧ (3 : Byte) = Mode.runManual.code ∧
      (inMode .runManual running).mc.mode = .runManual ∧ (2 : Byte) = Mode.runAuto.code ∧ maint.takesRequest = true ∧
      maint.mc.mode ≠ .stopped ∧ armed.takesRequest = true ∧ armed.mc.mode.running = false ∧ 4 < (5 : Byte).toNat := by
  decide

/-- STOPPED with the key active. -/
def keyed : Part := { armed with lines := { armed.lines with maintKey := true } }

theorem witness_SetModeChangesTheRunningModeOrEntersMaint_maint :
    armed.takesRequest = true ∧ armed.mc.mode = .stopped ∧ armed.lines.maintKey = false ∧ keyed.takesRequest = true ∧
      keyed.lines.maintKey = true ∧ keyed.rs.requests = [] ∧ running.mc.mode ≠ .stopped ∧ running.mc.mode ≠ .maint := by decide

/-- With the key alone no condition below it is present. -/
theorem keyed_reports (c : Nat) (hc : c < 5) (b : Byte) : ¬keyed.Reports c b := by
  have h0 : ∀ i, ¬keyed.EstopHeld i := by decide
  have h4 : ∀ z, ¬(keyed.device z).latch = true := by decide
  match c with
  | 0 => exact fun ⟨i, ⟨hi, _⟩, _⟩ => h0 i hi
  | 1 | 2 | 3 => exact fun h => absurd h.1 (by decide)
  | 4 => exact fun ⟨z, ⟨hz, _⟩, _⟩ => h4 z hz

/-- The first, a middle and the last condition, and none before the key. -/
theorem witness_SetModeChangesTheRunningModeOrEntersMaint_conditions :
    ({ keyed with mc := { keyed.mc with estopMem := keyed.mc.estopMem.set 0 (some true) } } : Part).FirstReports 5 0 0 ∧
      ({ keyed with devices := keyed.devices.set 1 { DeviceRec.reset with latch := true } } : Part).FirstReports 5 4 1 ∧
      (∀ code b, ¬keyed.FirstReports 5 code b) ∧ keyed.FirstReports 6 5 0xFF := by
  refine ⟨⟨by decide, ⟨0, by decide, rfl⟩, fun c hc => absurd hc (Nat.not_lt_zero c)⟩,
    ⟨by decide, ⟨1, by decide, rfl⟩, fun c hc b => ?_⟩, fun c b h => keyed_reports c h.1 b h.2.1,
    ⟨by decide, ⟨rfl, rfl⟩, keyed_reports⟩⟩
  match c with
  | 0 => exact keyed_reports 0 (by decide) b
  | 1 => exact keyed_reports 1 (by decide) b
  | 2 => exact keyed_reports 2 (by decide) b
  | 3 => exact keyed_reports 3 (by decide) b

/-- STOPPED with a train on its way in Z2. -/
def unsettledRide : Part := inMode .stopped moving

theorem witness_SetModeConfigDisarmsASettledRide :
    armed.takesRequest = true ∧ armed.mc.mode = .stopped ∧
      (∀ x, (armed.train x).state = .absent ∨
        ((armed.train x).state = .present ∧ ∃ z, (armed.train x).head = some z ∧ (armed.zone z).state = .held)) ∧
      (∀ z, (armed.zone z).state ≠ .moving ∧ (armed.zone z).state ≠ .releasing) ∧
      Lowest unsettledRide.Restless 2 ∧
      running.mc.mode ≠ .stopped ∧ running.mc.mode ≠ .config := by decide +kernel

theorem noneBad {α : Type} {n : Nat} {table : Vector (Option α) n} {bad : Fin n → α → Prop} {index : Byte}
    (h : ∀ i, ¬SlotHas table bad i) : ¬LowestBad table bad index := fun ⟨i, ⟨hi, _⟩, _⟩ => h i hi

/-- No input of the small circuit is used twice. -/
theorem loaded_check6 (t i : Byte) : ¬loaded.CheckFails 6 t i := by
  rintro ⟨k, _, use, hu, _, hm, _⟩
  have hn : (loaded.store.inputUses.map Prod.fst).Nodup := by decide +kernel
  rw [← List.take_append_drop k loaded.store.inputUses, List.map_append] at hn
  have hd : use ∈ loaded.store.inputUses.drop k := by
    apply List.mem_of_getElem? (i := 0)
    rw [List.getElem?_drop]
    exact hu
  exact (List.nodup_append.1 hn).2.2 _ hm _ (List.mem_map_of_mem hd) rfl

/-- The small circuit passes the checks of its tables. -/
theorem loaded_checksOfTables (c : Nat) (hc : c < 19) (t i : Byte) : ¬loaded.CheckFails c t i :=
  match c with
  | 0 => id
  | 1 => fun h => absurd h.2.2 (by decide)
  | 2 | 3 | 4 | 7 | 8 | 9 | 10 | 11 | 12 | 13 | 14 | 15 | 16 | 17 | 18 => fun h => noneBad (by decide +kernel) h.2
  | 5 => fun h => h.elim (fun h => noneBad (by decide +kernel) h.2) (fun h => noneBad (by decide +kernel) h.2.2)
  | 6 => loaded_check6 t i
  | _ + 19 => absurd hc (by omega)

/-- The checks of the tables read nothing of the part but its store. -/
theorem checksOfTables {p q : Part} (h : p.store = q.store) {c : Nat} (hc : c < 19) {t i : Byte} :
    p.CheckFails c t i → q.CheckFails c t i := by
  interval_cases c <;> simp only [Part.CheckFails, h, imp_self]

/-- `loaded` with the STOP of the placed train inactive. -/
def stopInactive : Part := { loaded with cls := { loaded.cls with levels := loaded.cls.levels.set 10 (some 2) } }

/-- The first and the last check fail with none before them, and none fails. -/
theorem witness_ArmBuildsTheRideFromTheTables_checks :
    (({ loaded with store := Store.erased } : Part).CheckFails 1 2 0 ∧
        ∀ c t i, c < 1 → ¬({ loaded with store := Store.erased } : Part).CheckFails c t i) ∧
      (stopInactive.CheckFails 20 5 0 ∧ ∀ c t i, c < 20 → ¬stopInactive.CheckFails c t i) ∧
      ∀ c t i, ¬loaded.CheckFails c t i := by
  have silent : ∀ p : Part, (∀ n, ¬(p.store.Refers n ∧ p.cls.levels[n] = none)) → ∀ t i, ¬p.CheckFails 19 t i :=
    fun p h t i ⟨_, n, ⟨hn, _⟩, _⟩ => h n hn
  refine ⟨⟨⟨rfl, rfl, by decide⟩, fun c t i hc => ?_⟩, ⟨.inl ⟨rfl, 0, by decide +kernel, rfl⟩, fun c t i hc => ?_⟩,
    fun c t i => ?_⟩
  · rw [Nat.lt_one_iff.1 hc]
    exact id
  · by_cases h : c < 19
    · exact fun hf => loaded_checksOfTables c h t i (checksOfTables (p := stopInactive) (q := loaded) rfl h hf)
    · obtain rfl : c = 19 := by omega
      exact silent stopInactive (by decide +kernel) t i
  · by_cases h : c < 19
    · exact loaded_checksOfTables c h t i
    · match c with
      | 19 => exact silent loaded (by decide +kernel) t i
      | 20 =>
        exact fun h => h.elim (fun h => noneBad (by decide +kernel) h.2) (fun h => noneBad (by decide +kernel) h.2.2)
      | n + 21 => exact id

theorem witness_ArmBuildsTheRideFromTheTables :
    loaded.takesRequest = true ∧ loaded.mc.mode = .config ∧ loaded.mgmt.loadTainted = false ∧
      loaded.ring.synced = true ∧ running.mc.mode ≠ .config ∧ State.reset.part.ring.synced = false ∧
      loaded.store.placement[(0 : EntryId)] = some { train := 0, zone := 1 } ∧ (loaded.zone 1).state = .unarmed ∧
      loaded.store.zones[(2 : ZoneId)] = some block ∧ (loaded.zone 2).state = .unarmed ∧
      (∀ (i : EntryId) (x : TrainId), loaded.store.placement[i] ≠ some { train := x, zone := 2 }) ∧
      (after (.frameDrop .cIn []) loaded).mgmt.loadTainted = true := by decide +kernel

theorem witness_RestoreRunsAndStopHoldsTheRide_restore :
    armed.takesRequest = true ∧ 1 < (2 : Byte).toNat ∧ (1 : Byte).toNat ≤ 1 ∧ running.mc.mode ≠ .stopped ∧
      armed.mc.mode = .stopped ∧ (∀ z, (armed.zone z).state ≠ .fault) ∧
      (∀ z, (armed.zone z).state ≠ .moving ∧ (armed.zone z).state ≠ .releasing) ∧ armed.rs.requests = [] ∧
      (∀ i : EntryId, armed.store.estops[i].isSome = true → armed.mc.estopMem[i] ≠ some true) ∧
      armed.ring.silent = false ∧ armed.ring.linkDown = false ∧ armed.lines.supplyWarn = false ∧
      (∀ z, (armed.device z).latch = false) ∧ armed.lines.maintKey = false := by decide +kernel

theorem witness_RestoreRunsAndStopHoldsTheRide_zones :
    (((after (.releaseTimer 1) leaving).zone 1).state = .fault ∧
      ∀ w : ZoneId, w < 1 → ((after (.releaseTimer 1) leaving).zone w).state ≠ .fault) ∧
      (∀ z, (unsettledRide.zone z).state ≠ .fault) ∧ (unsettledRide.zone 2).state = .moving ∧
      (∀ w : ZoneId, w < 2 → (unsettledRide.zone w).state ≠ .moving ∧ (unsettledRide.zone w).state ≠ .releasing) := by
  decide +kernel

theorem witness_RestoreRunsAndStopHoldsTheRide_stop :
    loaded.takesRequest = true ∧ loaded.mc.mode = .config ∧ running.takesRequest = true ∧ running.mc.mode ≠ .config := by
  decide

theorem witness_TableWriteChangesOneSlot :
    loaded.takesRequest = true ∧ running.mc.mode ≠ .config ∧ loaded.mc.mode = .config ∧
      loaded.mgmt.loadTainted = false ∧ slotOf 1 62 = none ∧ slotOf 6 8 = none ∧ 1 < (2 : Byte).toNat ∧
      slotOf 6 7 = some (.estop 7) ∧ ([45] : List Byte).length < (Slot.estop 7).bodyLength ∧
      (Slot.estop 7).bodyLength ≤ ([45, 2] : List Byte).length ∧ slotOf 1 61 = some (.node 60) ∧
      (match loaded.store.load (.estop 7) [45, 2] with
        | .ok t => t.estops[(7 : EntryId)] = some ⟨44, 2⟩
        | .error _ => False) ∧
      (match loaded.store.load (.estop 7) [45, 16] with
        | .ok _ => False
        | .error n => n = 1) := by
  refine ⟨by decide, by decide, by decide, by decide, by decide, by decide, by decide, by decide, by decide, by decide,
    by decide, ?_, ?_⟩ <;> rfl

theorem witness_TablesEraseUnloadsEverySlot :
    loaded.takesRequest = true ∧ loaded.mc.mode = .config ∧ running.takesRequest = true ∧ running.mc.mode ≠ .config := by
  decide

/-- The small circuit lies in every range. -/
theorem store_valid : store.Valid := by
  have zones : ∀ z : ZoneId, store.zones[z].all (ZoneRec.valid z) = true := by decide +kernel
  have routes : ∀ i : RouteId, store.routes[i].all RouteRec.valid = true := by decide +kernel
  have switches : ∀ i : SwitchId, store.switches[i].all SwitchRec.valid = true := by decide +kernel
  refine ⟨fun z r h => ?_, fun i r h => ?_, fun i r h => ?_, by decide⟩
  · have := zones z; rw [h] at this; exact this
  · have := routes i; rw [h] at this; exact this
  · have := switches i; rw [h] at this; exact this

/-- A zone with a trap and a ready input, a route with a switch, a switch, a node, an e-stop entry and the parameters. -/
theorem witness_StoredBodiesReadBackAsTheirRecords :
    store.Valid ∧ (store.body (.zone 1)).isSome = true ∧ (store.body (.route 0)).isSome = true ∧
      (store.body (.switch 1)).isSome = true ∧ (store.body (.node 10)).isSome = true ∧
      (store.body (.placement 0)).isSome = true ∧ (store.body (.estop 0)).isSome = true ∧
      (store.body .params).isSome = true :=
  ⟨store_valid, by decide, by decide, by decide, by decide, by decide, by decide, by decide⟩

theorem witness_EveryStepKeepsTheRecordsInRange :
    (st running).part.store.Valid ∧ ∃ s', step { pending := [.tablesErase 9 []], part := loaded } = .next s' :=
  ⟨store_valid, _, rfl⟩

/-- `maint` with another budget. -/
def budgeted (n : Fin 6) : Part := { maint with mc := { maint.mc with budget := n } }

theorem witness_OverrideReleaseTestsAndOpensARoute_refused :
    maint.takesRequest = true ∧ running.mc.mode ≠ .maint ∧ maint.mc.mode = .maint ∧ 32 ≤ (32 : Byte).toNat ∧
      (31 : Byte) = finByte (31 : ZoneId) ∧ (budgeted 0).mc.budget = 0 ∧ (budgeted 1).mc.budget.val = (0 : Fin 6).val + 1 ∧
      (budgeted 5).mc.budget.val = (4 : Fin 6).val + 1 ∧
      (inMode .maint armed).mgmt.precedence ≠ some { code := 0x0B, zone := some 1, success := true } ∧
      maint.mgmt.precedence = some { code := 0x0B, zone := some 1, success := true } ∧
      (maint.zone 1).epoch ≠ join16 0 2 := by decide

/-- `maint` with the OPEN_FB input of Z1 active. -/
def maintOpen : Part := { maint with cls := { maint.cls with levels := maint.cls.levels.set 10 (some 5) } }

theorem maint_mayOverride : maint.MayOverride 1 station 0 .a 2 :=
  ⟨by decide, by decide, by decide, by decide, by decide, by decide, by decide, by decide⟩

theorem witness_OverrideReleaseTestsAndOpensARoute_opens :
    maint.takesRequest = true ∧ maint.mc.mode = .maint ∧ maint.mc.budget ≠ 0 ∧
      maint.mgmt.precedence = some { code := 0x0B, zone := some (finByte (1 : ZoneId)), success := true } ∧
      (maint.zone 1).epoch = join16 0 1 ∧ maint.MayOverride 1 station 0 .a 2 ∧ maint.rs.requests = [] ∧
      maint.rs.setting = none ∧ maint.openFb station = false ∧ maintOpen.takesRequest = true ∧
      maintOpen.openFb station = true :=
  ⟨by decide, by decide, by decide, by decide, by decide, maint_mayOverride, by decide, by decide, by decide, by decide,
    by decide⟩

/-- `maint` with Z2 FAULT: the successor is not FREE, and the zone itself is not its train's. -/
def maintBlocked : Part := track (zoneIn .held true) (zoneIn .fault false) (headIn 1) maint

theorem witness_OverrideReleaseTestsAndOpensARoute_badState :
    maintBlocked.takesRequest = true ∧ maintBlocked.mc.mode = .maint ∧ (maintBlocked.zone 1).epoch = join16 0 1 ∧
      (∀ rec x br sz, ¬maintBlocked.MayOverride 1 rec x br sz) ∧ maintBlocked.rs.setting = none := by
  refine ⟨by decide, by decide, by decide, fun rec x br sz h => ?_, by decide⟩
  have hrec : some station = some rec := h.loaded
  have hx : some (0 : TrainId) = some x := h.occupant
  cases hrec
  cases hx
  have hway : (Branch.a, some (2 : ZoneId)) = (br, some sz) := h.way
  cases hway
  exact absurd h.free (by decide)

/-- STOPPED with no train, Z1 in a state. -/
def unplaced (z1 : ZoneDyn) : Part := track z1 (zoneIn .free false) TrainRec.reset armed

/-- A FAULT zone with no train. -/
def faultZone : ZoneDyn := { zoneIn .fault false with reason := some .stuck }

theorem witness_ReconcilePlacesRemovesAndClears_place :
    (unplaced (zoneIn .free false)).takesRequest = true ∧ (unplaced (zoneIn .free false)).mc.mode = .stopped ∧
      maint.mc.mode = .maint ∧ (unplaced (zoneIn .free false)).store.zones[(1 : ZoneId)] = some station ∧
      ((unplaced (zoneIn .free false)).zone 1).state = .free ∧ ((unplaced (zoneIn .free false)).zone 1).flank = 0 ∧
      ((unplaced faultZone).zone 1).state = .fault ∧ ((unplaced faultZone).zone 1).occupant = none ∧
      ((unplaced faultZone).train 0).state ≠ .present ∧ ((unplaced faultZone).train 0).tail = none ∧
      (unplaced faultZone).level station.stop = true ∧ State.reset.part.level station.stop = false := by decide

/-- `armed` with the hold node of Z1 reporting no active input. -/
def cleared (p : Part) : Part := { p with cls := { p.cls with levels := p.cls.levels.set 10 (some 0) } }

theorem witness_ReconcilePlacesRemovesAndClears_remove :
    (cleared armed).takesRequest = true ∧ (cleared armed).mc.mode = .stopped ∧
      (cleared armed).store.zones[(1 : ZoneId)] = some station ∧
      (∀ r ∈ [station.trapA, station.stop, station.clear] ++ station.trapB.toList, (cleared armed).level r = false) ∧
      ((cleared armed).zone 1).state = .held ∧ ((cleared armed).zone 1).occupant = some 0 ∧
      ((cleared armed).train 0).head = some 1 ∧ ((cleared armed).train 0).tail = none ∧
      ((cleared (unplaced faultZone)).zone 1).state = .fault ∧ ((cleared (unplaced faultZone)).zone 1).occupant = none ∧
      running.mc.mode ≠ .stopped ∧ running.mc.mode ≠ .maint := by decide

/-- What RECONCILE refuses: bytes out of range, states that fit no action, and a track sensor that is active. -/
theorem witness_ReconcilePlacesRemovesAndClears_refused :
    32 ≤ (32 : Byte).toNat ∧ 2 < (3 : Byte).toNat ∧ 8 < (9 : Byte).toNat ∧ (armed.zone 1).state ≠ .free ∧
      (armed.zone 1).state ≠ .fault ∧ ((unplaced (zoneIn .free false)).zone 1).occupant = none ∧
      armed.level ⟨10, 2⟩ = true ∧
      ([station.trapA] ++ station.trapB.toList ++ [station.stop, station.clear]).find? armed.level = some ⟨10, 2⟩ ∧
      ([station.trapA] ++ station.trapB.toList ++ [station.stop, station.clear]).find? (cleared armed).level = none ∧
      (cleared (unplaced (zoneIn .free false))).level station.stop = false := by decide

/-- A FAULT zone that holds a reservation, which CLEAR ends. -/
theorem witness_ReconcilePlacesRemovesAndClears_reserved :
    let p := track (zoneIn .held true) { zoneIn .fault true with reason := some .edgeLoss }
      { headIn 1 with reserved := some 2 } armed
    (p.zone 2).state = .fault ∧ (p.zone 2).occupant = some 0 ∧ (p.train 0).reserved = some 2 ∧
      (p.train 0).head ≠ some 2 := by decide

theorem witness_DivertMarksAndReportingAreSet_divert :
    loaded.takesRequest = true ∧ loaded.mc.mode = .config ∧ running.takesRequest = true ∧ running.mc.mode ≠ .config ∧
      8 < (9 : Byte).toNat ∧ (8 : Byte) = trainByte (some (7 : TrainId)) ∧ 1 < (2 : Byte).toNat ∧ (1 : Byte).toNat ≤ 1 ∧
      armed.mc.mode = .stopped ∧ running.rs.requests = [] ∧ setting.rs.setting.isSome = true := by decide

theorem witness_DivertMarksAndReportingAreSet_events :
    running.takesRequest = true ∧ (4 : Byte) = BitVec.ofNat 8 BatchSize.four.toNat ∧
      (0 : Byte) = BitVec.ofNat 8 BatchSize.off.toNat ∧ (3 : Byte) ≠ 0 ∧ (3 : Byte) ≠ 1 ∧ (3 : Byte) ≠ 2 ∧
      (3 : Byte) ≠ 4 := by decide

/-- The last record that a queue takes, and a queue that takes no more. -/
theorem test_queueEvent :
    let full := fun (n : Nat) =>
      { reporting.mgmt with events := List.replicate n { seq := 5, time := 7, zone := none, train := none, body := .lateStop } }
    ((full 31).queueEvent 7 none none .lateStop).events.length = 32 ∧
      ((full 32).queueEvent 7 none none .lateStop).events.length = 32 ∧
      ((full 32).queueEvent 7 none none .lateStop).evqOverflow = true := by decide

theorem witness_CountsAreClearedOnRequest :
    running.takesRequest = true ∧ 3 < (4 : Byte).toNat ∧ nodeOf 61 = some 60 ∧ nodeOf 62 = none ∧
      (31 : Byte) = finByte (31 : ZoneId) ∧ 32 ≤ (32 : Byte).toNat ∧ (8 : Byte) = trainByte (some (7 : TrainId)) ∧
      8 < (9 : Byte).toNat ∧ 2 < (3 : Byte).toNat := by decide

theorem witness_ResetsBeginAndHoldThePart_request : running.takesRequest = true := by decide

theorem witness_AReportSetsTheLevelsOfItsNode :
    running.hears .fIn = true ∧ entry.ftype = typeReport ∧ reportOf entry = some entryReport := by decide

/-- `leaving` with the release limit of Z1 still to come. -/
def entering : Part :=
  track { zoneIn .releasing true with deadline := some 9000, releaseTimer := some 9000 } (zoneIn .reserved true)
    { headIn 1 with reserved := some 2 } leaving

theorem witness_EntriesMoveTheTrainOrHoldTheRide_normal :
    entering.TakesEdge entry entryReport { ch := 0, rising := true, time := 990 } 2 block .trapA ∧
      (entering.zone 2).state = .reserved ∧ (entering.zone 2).occupant = some 0 ∧ (entering.train 0).head = some 1 ∧
      (entering.train 0).tail = none ∧ (entering.zone 1).state = .releasing ∧ entering.edgeQuiet = true ∧
      atOrAfter entering.ring.ringTime (990 + BitVec.ofNat 32 (block.tMax.toNat * 10) + entering.periods 1) = false ∧
      atOrAfter entering.ring.ringTime (990 + 65535) = false := by decide +kernel

/-- Z2 FREE, MOVING, HELD and RELEASING. -/
theorem witness_EntriesMoveTheTrainOrHoldTheRide_unexpected :
    running.TakesEdge entry entryReport { ch := 0, rising := true, time := 990 } 2 block .trapA ∧
      (running.zone 2).state = .free ∧
      (moving.zone 2).state = .moving ∧
      ((track (zoneIn .free false) (zoneIn .held true) (headIn 2) running).zone 2).state = .held ∧
      ((track (zoneIn .free false) (zoneIn .releasing true) (headIn 2) running).zone 2).state = .releasing := by decide

/-- Z2 RESERVED for T1 while its head zone Z1 is HELD, or while it has no head zone; and while it has a tail zone. -/
theorem witness_EntriesMoveTheTrainOrHoldTheRide_reserved :
    let held := track (zoneIn .held true) (zoneIn .reserved true) (headIn 1) running
    let headless := track (zoneIn .held true) (zoneIn .reserved true) { headIn 1 with head := none } running
    let long := track (zoneIn .held true) (zoneIn .reserved true) { headIn 1 with tail := some 3 } running
    held.TakesEdge entry entryReport { ch := 0, rising := true, time := 990 } 2 block .trapA ∧
      (held.zone 2).state = .reserved ∧ (held.zone 2).occupant = some 0 ∧ (held.train 0).tail = none ∧
      (held.train 0).head = some 1 ∧ (held.zone 1).state ≠ .releasing ∧ (headless.train 0).head = none ∧
      (long.zone 2).occupant = some 0 ∧ (long.train 0).tail.isSome = true ∧ held.edgeQuiet = true := by decide +kernel

/-- T1 has left Z1, its tail zone, for Z2. -/
def trailing : Part :=
  track { zoneIn .releasing true with deadline := some 900, releaseTimer := some 900 }
    { zoneIn .moving true with entryTime := some 400, deadline := some 900, transitExpiry := some 1000 }
    { headIn 2 with tail := some 1 } running

/-- `trailing` with a SET route out of Z2, and nothing due. -/
def passingThrough : Part :=
  let p := track { zoneIn .releasing true with deadline := some 9000, releaseTimer := some 9000 }
    { zoneIn .moving true with entryTime := some 400, deadline := some 990, transitExpiry := some 1090 }
    { headIn 2 with tail := some 1 } running
  { p with rs := { p.rs with routes := [{ routeOut .set with zone := 2, succ := 1 }] } }

/-- A STOP after the deadline, and one on it over a closed device. -/
theorem witness_StopAndClearEdgesEndATransit_stop :
    trailing.TakesEdge (edged 11 6 0x82) (edgedReport 11 6 2 true) { ch := 2, rising := true, time := 990 } 2 block .stop ∧
      (trailing.zone 2).occupant = some 0 ∧ (trailing.zone 2).state = .moving ∧ (trailing.zone 2).deadline = some 900 ∧
      isAfter (clampTime trailing.ring.ringTime 990) 900 = true ∧ (passingThrough.zone 2).deadline = some 990 ∧
      isAfter (clampTime passingThrough.ring.ringTime 990) 990 = false ∧ (passingThrough.zone 2).entryTime = some 400 ∧
      (passingThrough.reportRead (edgedReport 11 6 2 true)).openFb block = false := by decide +kernel

/-- A STOP on the deadline over an open device, with a SET route. -/
theorem witness_StopAndClearEdgesEndATransit_passes :
    passingThrough.TakesEdge (edged 11 5 0x82) (edgedReport 11 5 2 true) { ch := 2, rising := true, time := 990 } 2
        block .stop ∧
      (passingThrough.reportRead (edgedReport 11 5 2 true)).openFb block = true ∧
      passingThrough.rs.routes = [{ routeOut .set with zone := 2, succ := 1 }] ∧ passingThrough.edgeQuiet = true ∧
      atOrAfter passingThrough.ring.ringTime (990 + BitVec.ofNat 32 (block.tClear.toNat * 10)) = false := by
  decide +kernel

/-- The CLEAR of a tail zone. -/
theorem witness_StopAndClearEdgesEndATransit_clear :
    trailing.TakesEdge (edged 31 0 4) (edgedReport 31 0 4 false) { ch := 4, rising := false, time := 990 } 1 station
        .clear ∧
      (trailing.zone 1).occupant = some 0 ∧ (trailing.zone 1).state = .releasing ∧ (trailing.train 0).tail = some 1 ∧
      trailing.rs.setting = none ∧ trailing.rs.requests = [] := by decide

/-- A STOP where Z2 is FREE, and a CLEAR of a RELEASING zone that is still the head zone. -/
theorem witness_StopAndClearEdgesEndATransit_faults :
    running.TakesEdge (edged 11 6 0x82) (edgedReport 11 6 2 true) { ch := 2, rising := true, time := 990 } 2 block .stop ∧
      (running.zone 2).state = .free ∧ (entering.zone 2).state = .reserved ∧
      entering.TakesEdge (edged 31 0 4) (edgedReport 31 0 4 false) { ch := 4, rising := false, time := 990 } 1 station
        .clear ∧
      (entering.zone 1).occupant = some 0 ∧ (entering.zone 1).state = .releasing ∧ (entering.train 0).tail ≠ some 1 ∧
      entering.edgeQuiet = true := by decide +kernel

/-! ## Witnesses: what stands alone on a node -/

theorem noDeviceOn {p : Part} {n : NodeId}
    (h : ∀ z : ZoneId, p.store.zones[z].all (fun r => r.holdNode != n) = true) : p.NoDeviceOn n := by
  intro z rec hr
  have := h z
  rw [hr] at this
  simpa using this

theorem noSwitchOn {p : Part} {n : NodeId}
    (h : ∀ i : SwitchId, p.store.switches[i].all (fun r => r.node != n) = true) : p.NoSwitchOn n := by
  intro i rec hr
  have := h i
  rw [hr] at this
  simpa using this

theorem noEstopOn {p : Part} {n : NodeId}
    (h : ∀ i : EntryId, p.store.estops[i].all (fun r => r.node != n) = true) : p.NoEstopOn n := by
  intro i rec hr
  have := h i
  rw [hr] at this
  simpa using this

theorem noReadyOn {p : Part} {n : NodeId}
    (h : ∀ z : ZoneId, p.store.zones[z].all (fun r => r.ready.all (fun ref => ref.node != n)) = true) : p.NoReadyOn n := by
  intro z rec hr ref href
  have := h z
  rw [hr] at this
  simp only [Option.all_some, List.all_eq_true] at this
  simpa using this ref href

theorem onlyDevice {p : Part} {z : ZoneId} {rec : ZoneRec} (hz : p.store.zones[z] = some rec)
    (h : ∀ w : ZoneId, p.store.zones[w].all (fun r => r.holdNode != rec.holdNode || w == z) = true) :
    p.OnlyDevice z rec := by
  refine ⟨hz, fun w r hr hn => ?_⟩
  have := h w
  rw [hr] at this
  simpa [hn] using this

/-- The nodes of the small circuit carry one thing each, apart from the STOP inputs on the hold nodes. -/
theorem store_only :
    running.OnlyDevice 1 station ∧ running.OnlyDevice 2 block ∧
      (running.NoSwitchOn 10 ∧ running.NoEstopOn 10 ∧ running.NoReadyOn 10) ∧
      (running.NoDeviceOn 30 ∧ running.NoSwitchOn 30 ∧ running.NoEstopOn 30 ∧ running.NoReadyOn 30) ∧
      (running.NoDeviceOn 44 ∧ running.NoSwitchOn 44 ∧ running.NoEstopOn 44) ∧
      (running.NoDeviceOn 45 ∧ running.NoSwitchOn 45 ∧ running.NoReadyOn 45) ∧
      (running.NoDeviceOn 50 ∧ running.NoEstopOn 50 ∧ running.NoReadyOn 50) :=
  ⟨onlyDevice (by decide) (by decide), onlyDevice (by decide) (by decide),
    ⟨noSwitchOn (by decide), noEstopOn (by decide), noReadyOn (by decide)⟩,
    ⟨noDeviceOn (by decide), noSwitchOn (by decide), noEstopOn (by decide), noReadyOn (by decide)⟩,
    ⟨noDeviceOn (by decide), noSwitchOn (by decide), noEstopOn (by decide)⟩,
    ⟨noDeviceOn (by decide), noSwitchOn (by decide), noReadyOn (by decide)⟩,
    ⟨noDeviceOn (by decide), noEstopOn (by decide), noReadyOn (by decide)⟩⟩

/-! ## Witnesses: edges that move a train or its limit -/

/-- Z2 as a LIFT that trains pass through. -/
def lift : ZoneRec := { block with kind := .lift, passThrough := true }

/-- A part with the lift. -/
def lifted (p : Part) : Part := { p with store := { p.store with zones := p.store.zones.set 2 (some lift) } }

/-- A normal entry of the BLOCK, and one of the LIFT with its device closed, whose AUTO_ENTRY request is not ready. -/
theorem witness_EntriesMoveTheTrainOrHoldTheRide_whole :
    (entering.NoDeviceOn 31 ∧ entering.NoSwitchOn 31 ∧ entering.NoEstopOn 31 ∧ entering.NoReadyOn 31) ∧
      entering.rs.requests = [] ∧ block.passThrough = false ∧
      ((lifted entering).NoDeviceOn 31 ∧ (lifted entering).NoSwitchOn 31 ∧ (lifted entering).NoEstopOn 31 ∧
        (lifted entering).NoReadyOn 31) ∧
      (lifted entering).TakesEdge entry entryReport { ch := 0, rising := true, time := 990 } 2 lift .trapA ∧
      lift.kind = .lift ∧ lift.passThrough = true ∧ (lifted entering).mc.mode = .runAuto ∧
      ((lifted entering).reportRead entryReport).closedFb lift = true ∧ (lifted entering).edgeQuiet = true ∧
      (track (zoneIn .releasing true) (zoneIn .moving true) { headIn 2 with tail := some 1 } (lifted entering)).ready
        { zone := 2, train := 0, origin := .autoEntry, posted := 990, reported := false, refusal := none } = none :=
  ⟨⟨noDeviceOn (by decide), noSwitchOn (by decide), noEstopOn (by decide), noReadyOn (by decide)⟩, by decide, by decide,
    ⟨noDeviceOn (by decide), noSwitchOn (by decide), noEstopOn (by decide), noReadyOn (by decide)⟩, by decide +kernel,
    by decide, by decide, by decide, by decide +kernel, by decide +kernel, by decide +kernel⟩

/-- No route of its own: nothing is set and no request waits, and a setting that waits elsewhere. -/
theorem witness_StopAndClearEdgesEndATransit_setter :
    ((trailing.reportRead (edgedReport 11 5 2 true)).NoRouteStarts 11 ∧
      (trailing.reportRead (edgedReport 11 5 2 true)).openFb block = true ∧ trailing.rs.routes = []) ∧
      setting.NoRouteStarts 11 :=
  ⟨⟨.inl ⟨by decide, by decide⟩, by decide +kernel, by decide⟩,
    .inr ⟨by decide, by decide, noReadyOn (by decide)⟩⟩

/-- Z2 with its STOP apart from its device, in a state and with a reason. -/
def apart (state : ZoneState) (reason : Option FaultReason) : Part :=
  let p := track (zoneIn .free false) { zoneIn state true with reason := reason } (headIn 2) running
  { p with store := { p.store with zones := p.store.zones.set 2 (some { block with stop := ⟨31, 5⟩ }) } }

/-- A STOP in a RESERVED zone and in a LOST one, on a node with no other input. -/
theorem witness_StopAndClearEdgesEndATransit_apart :
    (apart .reserved none).TakesEdge (edged 31 0x20 0x85) (edgedReport 31 0x20 5 true)
        { ch := 5, rising := true, time := 990 } 2 { block with stop := ⟨31, 5⟩ } .stop ∧
      ((apart .reserved none).zone 2).state = .reserved ∧ ((apart .reserved none).zone 2).occupant = some 0 ∧
      ((apart .fault (some .lost)).zone 2).state = .fault ∧ ((apart .fault (some .lost)).zone 2).reason = some .lost ∧
      ((apart .reserved none).NoDeviceOn 31 ∧ (apart .reserved none).NoSwitchOn 31 ∧
        (apart .reserved none).NoEstopOn 31 ∧ (apart .reserved none).NoReadyOn 31) ∧
      (apart .reserved none).edgeQuiet = true ∧ (apart .fault (some .lost)).edgeQuiet = true :=
  ⟨by decide +kernel, by decide, by decide, by decide, by decide,
    ⟨noDeviceOn (by decide), noSwitchOn (by decide), noEstopOn (by decide), noReadyOn (by decide)⟩, by decide +kernel,
    by decide +kernel⟩

/-- T1 MOVING in Z2, its trap pending for `dt` ticks at 990, and nothing due. -/
def measuring (dt : RingTime) : Part :=
  track (zoneIn .free false)
    { zoneIn .moving true with entryTime := some (990 - dt), trap := .pending, deadline := some 9000
                               transitExpiry := some 9100 }
    (headIn 2) running

/-- A TRAP_B edge at once, at the speeds on either side of v_max and of v_min, at the last tick of the trap and after it. -/
theorem witness_TrapAndLiftEdgesMoveTheLimit_trap :
    (([0, 3332, 3334, 20000, 20001, 65535, 65536] : List RingTime).all (fun dt =>
      decide ((measuring dt).TakesEdge (edged 31 2 0x81) (edgedReport 31 2 1 true) { ch := 1, rising := true, time := 990 } 2
          block .trapB) &&
        (measuring dt).edgeQuiet && elapsed (990 - dt) 990 == dt.toNat &&
        clampTime (measuring dt).ring.ringTime 990 == 990)) = true ∧
      (running.NoDeviceOn 31 ∧ running.NoSwitchOn 31 ∧ running.NoEstopOn 31 ∧ running.NoReadyOn 31) ∧
      1000 * 10000 / 3332 = 3001 ∧ 1000 * 10000 / 3334 ≤ block.vMax.toNat ∧ 1000 * 10000 / 20000 = block.vMin.toNat ∧
      1000 * 10000 / 20001 < block.vMin.toNat ∧ 65535 < 65536 ∧ block.vMax.toNat < 65000 ∧
      isDue (1000 : RingTime) (some (9000 + 120000 + 100)) = false :=
  ⟨by decide +kernel,
    ⟨noDeviceOn (by decide), noSwitchOn (by decide), noEstopOn (by decide), noReadyOn (by decide)⟩, by decide, by decide,
    by decide, by decide, by decide, by decide, by decide⟩

/-- T1 MOVING in the LIFT, running and paused. -/
def lifting (remainder : Option RingTime) : Part :=
  lifted (track (zoneIn .free false)
    { zoneIn .moving true with entryTime := some 400, deadline := some 9000, remainder := remainder
                               transitExpiry := if remainder.isSome then none else some 9100 }
    (headIn 2) running)

/-- CLOSED_FB and OPEN_FB edges of the LIFT, running and paused, and of a BLOCK. -/
theorem witness_TrapAndLiftEdgesMoveTheLimit_lift :
    (([none, some 8000] : List (Option RingTime)).all (fun rem =>
      decide ((lifting rem).TakesEdge (edged 11 2 0x81) (edgedReport 11 2 1 true) { ch := 1, rising := true, time := 990 } 2
          lift .closedFb) &&
        decide ((lifting rem).TakesEdge (edged 11 1 0x80) (edgedReport 11 1 0 true) { ch := 0, rising := true, time := 990 }
          2 lift .openFb) &&
        (lifting rem).edgeQuiet && ((lifting rem).zone 2).remainder == rem &&
        ((lifting rem).zone 2).deadline == some 9000)) = true ∧
      ((lifting none).OnlyDevice 2 lift ∧ (lifting (some 8000)).OnlyDevice 2 lift) ∧
      (running.NoSwitchOn 11 ∧ running.NoEstopOn 11 ∧ running.NoReadyOn 11) ∧
      atOrAfter (1000 : RingTime) (990 + 8000 + 100) = false ∧
      (measuring 5000).TakesEdge (edged 11 1 0x80) (edgedReport 11 1 0 true) { ch := 0, rising := true, time := 990 } 2
        block .openFb ∧
      block.kind ≠ .lift :=
  ⟨by decide +kernel, ⟨onlyDevice (by decide) (by decide), onlyDevice (by decide) (by decide)⟩,
    ⟨noSwitchOn (by decide), noEstopOn (by decide), noReadyOn (by decide)⟩, by decide, by decide +kernel, by decide⟩

/-! ## Witnesses: COMMANDs and requests for routes -/

/-- Releases and holds for the device of Z1, under a HOLD and under an OPEN permit. -/
theorem witness_HoldCommandsAreForwardedAndSupervised :
    (downstream [command 11 0 1] running).TakesCommand (command 11 0 1) [] { flags := 0, outputs := 1 } ∧
      nodeOf (command 11 0 1).dest = some 10 ∧ running.store.nodes[(10 : NodeId)] = some .hold ∧
      (running.device 1).permit = .hold ∧ (leaving.device 1).permit = .opened ∧
      (downstream [command 11 0 0] leaving).TakesCommand (command 11 0 0) [] { flags := 0, outputs := 0 } := by decide

theorem witness_TheControllersBroadcastHoldIsTaken :
    let f : Frame := { dest := 63, src := 0, ftype := 2, payload := [1, 0, 0] }
    (downstream [f] waiting).TakesCommand f [] { flags := 1, outputs := 0 } ∧ f.dest.toNat % 64 = 63 ∧
      (1 : Byte).getLsbD 0 = true ∧ waiting.rs.requests = [request] ∧ running.rs.requests = [] ∧
      setting.rs.setting.isSome = true := by decide

/-- `running` with a SET route out of Z1. -/
def routed : Part :=
  let p := track (zoneIn .held true) (zoneIn .reserved true) { headIn 1 with reserved := some 2 } running
  { p with rs := { p.rs with routes := [routeOut .set] } }

/-- Not ready: the gap is running. -/
theorem witness_LevelRequestsFollowTheAsSentValue :
    (gapAt 2000 (downstream [command 11 0 1] running)).TakesHoldCommand (command 11 0 1) [] { flags := 0, outputs := 1 } 1
        station ∧
      ({ flags := 0, outputs := 1 } : Command).holdValue station.holdCh = .release ∧ running.mc.mode ≠ .stopped ∧
      (running.zone 1).state = .held ∧ (running.zone 1).occupant = some 0 ∧ running.rs.requests = [] ∧
      running.rs.routes = [] ∧ (gapAt 2000 running).ready { request with posted := 1000, refusal := some 1101 } = none ∧
      (waiting.zone 1).state = .held ∧ waiting.rs.requests = [request] ∧
      ({ flags := 0, outputs := 0 } : Command).holdValue station.holdCh = .hold ∧
      routed.rs.routes.filter (fun r => r.zone == 1 && r.phase == .set) = [routeOut .set] ∧ routed.rs.requests = [] ∧
      (routed.zone 2).state = .reserved ∧ (routed.zone 2).occupant = some 0 :=
  ⟨⟨by decide, by decide, by decide, onlyDevice (by decide) (by decide)⟩, by decide, by decide, by decide, by decide,
    by decide, by decide, by decide, by decide, by decide, by decide, by decide, by decide, by decide, by decide⟩

/-- The lock of the route out of Z1, by the switch that the small circuit shows locked. -/
theorem running_claimsMet : (running.reservedFor 2 0).ClaimsMet [.switch 50 .a] := by
  refine ⟨by decide, by decide, by simp, ?_⟩
  intro n pos i rec hc hi hrec
  simp only [List.mem_singleton, Claim.switch.injEq] at hc
  obtain ⟨rfl, rfl⟩ := hc
  have h1 : (running.reservedFor 2 0).switchOf 50 = some 1 := by decide
  rw [h1] at hi
  cases hi
  have h2 : (running.reservedFor 2 0).store.switches[(1 : SwitchId)] = some switch := by decide
  rw [h2] at hrec
  cases hrec
  decide

theorem witness_ClaimsRunToASetRoute :
    (downstream [command 11 0 1] running).TakesHoldCommand (command 11 0 1) [] { flags := 0, outputs := 1 } 1 station ∧
      (running.train 0).head = some 1 ∧ running.rs.setting = none ∧ running.level ⟨44, 0⟩ = true ∧
      running.dsp.last = none ∧ running.selectBranch 1 station 0 = some .a ∧
      running.routeRec 1 .a = some { zone := 1, branch := .a, claims := [.reserve 2, .switch 50 .a] } ∧
      (running.reservedFor 2 0).ClaimsMet [.switch 50 .a] ∧ running.openFb station = false ∧
      isDue waiting.ring.ringTime (gapAt 1000 waiting).dsp.expiry = true ∧ waiting.rs.requests = [request] ∧
      waiting.ready request = some .a ∧ (waiting.device 1).asSent ≠ some .hold :=
  ⟨⟨by decide, by decide, by decide, onlyDevice (by decide) (by decide)⟩, by decide, by decide, by decide, by decide,
    by decide, by decide, running_claimsMet, by decide, by decide, by decide, by decide, by decide⟩

/-- `waiting` with another request before the one for Z1, and the locks of the switch reading `lv`. -/
def queued (lv : BitVec 16) : Part :=
  { waiting with
    cls := { waiting.cls with levels := waiting.cls.levels.set 50 (some lv) }
    rs := { waiting.rs with requests := [{ request with zone := 2 }, request] } }

/-- The older request is not ready; the switch reads no lock, the other one, and both. -/
theorem witness_ClaimsRunToASetRoute_switch :
    (queued 0).ready { request with zone := 2 } = none ∧ (queued 0).ready request = some .a ∧
      (queued 0).routeRec 1 .a = some { zone := 1, branch := .a, claims := .reserve 2 :: ([] ++ [.switch 50 .a]) } ∧
      ((queued 0).reservedFor 2 0).ClaimsMet [] ∧ (queued 0).switchOf 50 = some 1 ∧
      (queued 0).store.switches[(1 : SwitchId)] = some switch ∧ ((queued 0).locksRead switch .a).1 = false ∧
      ((queued 2).locksRead switch .a).1 = false ∧ (queued 3).locksRead switch .a = (true, true) ∧
      (queued 3).ready request = some .a :=
  ⟨by decide, by decide, by decide, ⟨by simp, by simp, .nil, by simp⟩, by decide, by decide, by decide, by decide,
    by decide, by decide⟩

/-! ## Witnesses: edges of reports -/

/-- `routed` with the lap threshold at 1. -/
def serviced : Part := { routed with store := { routed.store with params := { routed.store.params with lapThreshold := 1 } } }

theorem witness_AnOpenedDeviceReleasesAndDispatches :
    serviced.TakesEdge (edged 10 5 0x80) (edgedReport 10 5 0 true) { ch := 0, rising := true, time := 990 } 1 station
        .openFb ∧
      (serviced.zone 1).state = .held ∧ (serviced.zone 1).occupant = some 0 ∧ serviced.rs.routes = [routeOut .set] ∧
      serviced.edgeQuiet = true ∧
      atOrAfter serviced.ring.ringTime (990 + BitVec.ofNat 32 (station.tClear.toNat * 10)) = false ∧
      serviced.store.params.dispatchGap.toNat = 0 ∧ serviced.store.params.slowThreshold = 0 ∧
      serviced.rs.requests = [] ∧ serviced.rs.setting = none ∧ serviced.store.params.lapThreshold.toNat = 1 ∧
      (serviced.train 0).serviceDue = false ∧ running.store.params.lapThreshold.toNat = 0 := by decide +kernel

/-- Z2's device reads closed while another request could wait. -/
theorem witness_AnOpenedDeviceReleasesAndDispatches_others :
    (serviced.reportRead (edgedReport 10 5 0 true)).OthersNotOpen 1 := by
  intro w rec hr hw
  have h : ∀ w : ZoneId, w = 1 ∨ (serviced.reportRead (edgedReport 10 5 0 true)).store.zones[w].all
      (fun rec => !(serviced.reportRead (edgedReport 10 5 0 true)).openFb rec) = true := by decide +kernel
  have := (h w).resolve_left hw
  rw [hr] at this
  simpa using this

/-- T1 MOVING in Z2, with nothing due and the last edge counter of node 31 at 7. -/
def skipped : Part :=
  let p := track (zoneIn .free false)
    { zoneIn .moving true with entryTime := some 400, deadline := some 9000, transitExpiry := some 9100 } (headIn 2) running
  { p with cls := { p.cls with lastCounter := p.cls.lastCounter.set 30 (some 7) } }

/-- `skipped` with the edge-loss count of node 31 one below its threshold. -/
def skippedOften : Part :=
  { skipped with cnt :=
      { skipped.cnt with nodes := skipped.cnt.nodes.set 30 { stray := 0, edgeLoss := 0xFFFE, alerted := false } } }

/-- The count that comes to its threshold alerts after the records of the fault. -/
theorem test_edgeLossAlert :
    let p := after (.reportFrame (reading 30 0)) skippedOften
    p.cnt.nodes[(30 : NodeId)] = { stray := 0, edgeLoss := 0xFFFF, alerted := true } ∧ p.mgmt.healthAlert = true ∧
      (p.zone 2).reason = some .edgeLoss := by decide +kernel

/-- Node 31 carries TRAP_A of Z1 and CLEAR of Z2: one zone is concerned, and with Z2 HELD none. -/
theorem witness_LostEdgesFaultTheZonesOfTheNode :
    skipped.TakesReport (reading 30 0) (readingReport 30 0) ∧ skipped.mc.mode ≠ .config ∧
      skipped.cls.lastCounter[(30 : NodeId)] = some 7 ∧ (7 : Byte) + BitVec.ofNat 8 0 ≠ 0 ∧
      (30 : NodeId) ∈ [block.holdNode, block.trapA.node, block.stop.node, block.clear.node] ∧
      (skipped.zone 2).state = .moving ∧ (skipped.zone 2).occupant = some 0 ∧
      (∀ z : ZoneId, (skipped.zone z).state = .reserved ∨ (skipped.zone z).state = .moving ∨
        (skipped.zone z).state = .releasing → z = 2) ∧
      skipped.edgeQuiet = true ∧ skipped.cnt.nodes[(30 : NodeId)].edgeLoss = 0 ∧
      skippedOften.TakesReport (reading 30 0) (readingReport 30 0) ∧
      skippedOften.cnt.nodes[(30 : NodeId)].edgeLoss = 0xFFFE ∧ skippedOften.cnt.nodes[(30 : NodeId)].alerted = false ∧
      (∀ z : ZoneId, (running.zone z).state ≠ .reserved ∧ (running.zone z).state ≠ .moving ∧
        (running.zone z).state ≠ .releasing) := by decide +kernel

/-- Node 31 one stray edge before its threshold. -/
def straying : Part :=
  { running with cnt :=
      { running.cnt with nodes := running.cnt.nodes.set 31 { stray := 0xFFFE, edgeLoss := 0, alerted := false } } }

/-- Z1's device awaiting its closing since 1, slow under the threshold 1. -/
def slowly : Part :=
  let d : DeviceRec := { DeviceRec.reset with forwarded := some .hold, sup := .awaiting, timer := some 9000, changeTime := some 1 }
  { running with
    devices := running.devices.set 1 d
    store := { running.store with params := { running.store.params with slowThreshold := 1 }
                                  zones := running.store.zones.set 1 (some { station with fbLimit := 199 }) } }

/-- A TRAP_B edge of Z2, which is FREE; a match after 999 ticks under a limit of 199 ms, and one under 200 ms. -/
theorem witness_HealthCountsRiseAndAlertOnce :
    straying.TakesEdge (edged 31 2 0x81) (edgedReport 31 2 1 true) { ch := 1, rising := true, time := 990 } 2 block
        .trapB ∧
      (straying.zone 2).state ≠ .unarmed ∧ (straying.zone 2).state ≠ .moving ∧ straying.edgeQuiet = true ∧
      straying.cnt.nodes[(31 : NodeId)].stray = 0xFFFE ∧ running.cnt.nodes[(31 : NodeId)].stray = 0 ∧
      slowly.TakesReadings (reading 10 2) (readingReport 10 2) ∧ (slowly.device 1).sup = .awaiting ∧
      (slowly.device 1).forwarded = some .hold ∧ HoldValue.hold.matched false true = true ∧
      199 * 5 < elapsed 1 slowly.ring.ringTime ∧ ¬200 * 5 < elapsed 1 slowly.ring.ringTime ∧
      slowly.store.params.slowThreshold.toNat = 1 ∧ slowly.cnt.devices[(1 : ZoneId)].slow = 0 ∧
      (risen 0).toNat = 1 := by decide +kernel

/-! ## Witnesses: readings of reports -/

theorem witness_DevicesAreSupervisedAtReports :
    supervised.TakesReport (reading 10 2) (readingReport 10 2) ∧ (supervised.device 1).sup = .awaiting ∧
      station.holdNode = 10 ∧ loaded.TakesReport (reading 10 2) (readingReport 10 2) ∧ block.holdNode ≠ 10 := by decide

/-- The switch held by one route, its lock shown good, both and neither. -/
theorem witness_LostLocksHoldTheRide :
    let p := maintSwitch (some .a) 1 running
    p.TakesReadings (reading 50 1) (readingReport 50 1) ∧ p.TakesReadings (reading 50 3) (readingReport 50 3) ∧
      p.TakesReadings (reading 50 0) (readingReport 50 0) ∧ p.switchOf 50 = some 1 ∧
      p.store.switches[(1 : SwitchId)] = some switch ∧ (p.switch 1).commanded = some .a ∧ p.waitsOn 50 = false ∧
      (p.switch 1).holders ≠ 0 ∧ (p.switch 1).lockLost = false ∧ p.mc.mode ≠ .config ∧
      (p.reportRead (readingReport 50 1)).locksRead switch .a = (true, false) ∧
      (p.reportRead (readingReport 50 3)).locksRead switch .a = (true, true) ∧
      (p.reportRead (readingReport 50 0)).locksRead switch .a = (false, false) ∧
      ((maintSwitch (some .a) 0 running).switch 1).holders = 0 := by decide +kernel

/-- The mark is set, and stands. -/
theorem test_lockLost :
    let p := after (.reportFrame (reading 50 0)) (maintSwitch (some .a) 1 running)
    (p.switch 1).lockLost = true ∧ (p.switch 1).holders = 1 ∧ p.mc.causes = [.switch] := by decide +kernel

/-- The claim of `setting` waits on the switch of node 51, the last claim of its route. -/
theorem witness_TheWaitingClaimIsResumed :
    setting.TakesReadings (reading 50 1) (readingReport 50 1) ∧
      setting.rs.setting = some { zone := 1, train := 0, origin := .level, branch := .a, index := 1 } ∧
      setting.rs.timer.isSome = true ∧ setting.rs.stack = [.switch 50 .a, .reserve 2] ∧
      (setting.switch 1).commanded = some .a ∧ setting.store.zones[(1 : ZoneId)] = some station ∧
      setting.routeRec 1 .a = some { zone := 1, branch := .a, claims := [.reserve 2, .switch 50 .a] } ∧
      (∀ rq ∈ setting.rs.requests, rq.zone = 1) ∧ (setting.device 1).asSent ≠ some .hold ∧
      ([Claim.reserve 2, .switch 50 .a].drop 2) = [] ∧ setting.openFb station = false ∧
      setting.TakesReadings (reading 50 3) (readingReport 50 3) ∧
      setting.TakesReadings (reading 50 2) (readingReport 50 2) ∧
      ({ setting with devices := setting.devices.set 1 { DeviceRec.reset with asSent := some .hold } } : Part).TakesReadings
        (reading 50 1) (readingReport 50 1) := by decide +kernel

/-- A claim after the waiting one is claimable no longer: a FLANK on the unloaded Z3. -/
theorem witness_TheWaitingClaimIsResumed_lost :
    let p := { setting with store :=
      { setting.store with routes := setting.store.routes.set 0 (some ⟨1, .a, [.reserve 2, .switch 50 .a, .flank 3]⟩) } }
    p.TakesReadings (reading 50 1) (readingReport 50 1) ∧
      p.routeRec 1 .a = some ⟨1, .a, [.reserve 2, .switch 50 .a, .flank 3]⟩ ∧
      [Claim.reserve 2, .switch 50 .a, .flank 3].drop 2 = [] ++ .flank 3 :: [] ∧ p.claimable (.flank 3) = false ∧
      p.ready request = none := by decide +kernel

/-- The e-stop input of node 46 goes active, with its memory inactive or unknown, and reads inactive. -/
theorem witness_EstopInputsHoldTheRide :
    running.TakesReadings (reading 45 2) (readingReport 45 2) ∧
      (running.reportRead (readingReport 45 2)).EstopRises (readingReport 45 2) 0 ∧
      running.mc.mode ≠ .config ∧ (∀ j : EntryId, ¬j < 0) ∧
      running.TakesReadings (reading 45 0) (readingReport 45 0) ∧ (0 : BitVec 16).getLsbD 1 = false ∧
      loaded.mc.mode = .config ∧ loaded.TakesReadings (reading 45 2) (readingReport 45 2) :=
  ⟨by decide +kernel, ⟨⟨45, 1⟩, by decide, by decide, by decide, by decide⟩, by decide, by decide, by decide +kernel, by decide,
    by decide, by decide +kernel⟩

/-- The ready input of Z1 falls while its route is SET, and while its route waits for the switch. -/
theorem witness_LostReadinessCancelsOrAborts :
    routed.TakesReadings (reading 44 0) (readingReport 44 0) ∧ routed.store.zones[(1 : ZoneId)] = some station ∧
      station.kind = .station ∧ station.ready = [⟨44, 0⟩] ∧ block.ready = [] ∧ (0 : BitVec 16).getLsbD 0 = false ∧
      (routed.reportRead (readingReport 44 0)).firstInactive station = some 0 ∧
      routed.rs.routes.filter (fun a => a.zone == 1 && a.phase == .set) = [routeOut .set] ∧
      (routed.zone 1).state = .held ∧ routed.rs.requests = [] ∧
      setting.TakesReadings (reading 44 0) (readingReport 44 0) ∧ setting.rs.routes = [] ∧
      setting.rs.setting = some { zone := 1, train := 0, origin := .level, branch := .a, index := 1 } ∧
      setting.rs.timer.isSome = true ∧ (∀ rq ∈ setting.rs.requests, rq.zone = 1) ∧ running.rs.requests = [] ∧
      running.rs.setting = none ∧ running.rs.routes = [] := by decide +kernel

/-- A zone with two ways out under each rule; the switch held 7 and 8 times. -/
theorem witness_ClaimsAndBranchesAreTested :
    running.switchOf 50 = some 1 ∧ ((maintSwitch (some .a) 7 running).switch 1).claimable .a = true ∧
      ((maintSwitch (some .a) 8 running).switch 1).claimable .a = false ∧
      ((maintSwitch (some .a) 7 running).switch 1).claimable .b = false ∧ station.succB = none ∧
      running.routeRec 1 .a = some ⟨1, .a, [.reserve 2, .switch 50 .a]⟩ ∧
      (∀ c ∈ [Claim.reserve 2, .switch 50 .a], running.claimable c = true) ∧ running.routeRec 1 .b = none ∧
      ({ station with succB := some 3, rule := .firstFree } : ZoneRec).succB ≠ none := by decide

/-- `running` meets the invariants that are stated of every step; a step of it is a tick. -/
theorem witness_EveryStepKeepsHealthyWithTheMode :
    running.HealthyFollowsMode ∧ ∃ s', step { pending := [.ringTimeTick], part := running } = .next s' :=
  ⟨rfl, _, rfl⟩

theorem witness_EveryStepKeepsTheRideInterlocked :
    armed.Interlocked ∧ ∃ s', step { pending := [.ringTimeTick], part := armed } = .next s' :=
  ⟨⟨fun _ => by decide, fun _ => by decide, fun _ => by decide⟩, _, rfl⟩

theorem witness_EveryStepKeepsLatchAndMonitorsCoherent :
    (after .supplyWarnBegin running).LatchCoherent ∧ (after .supplyWarnBegin running).MonitorsCoherent ∧
      ∃ s', step { pending := [.ringTimeTick], part := after .supplyWarnBegin running } = .next s' := by
  refine ⟨⟨by decide, by decide, ?_, by decide, by decide, by decide⟩, ⟨by decide, by decide, by decide, by decide⟩, _, rfl⟩
  intro c h
  have : (after .supplyWarnBegin running).mc.first = some .supply := by decide
  rw [this] at h
  cases h
  decide

theorem witness_EveryStepKeepsQueuesWithinCapacity :
    (answering 8).WithinCapacity ∧ ∃ s', step { pending := [.ringTimeTick], part := answering 8 } = .next s' :=
  ⟨⟨by decide, by decide, by decide, by decide, by decide⟩, _, rfl⟩

theorem witness_EveryStepKeepsZonesCoherent :
    leaving.ZonesCoherent ∧ ∃ s', step { pending := [.ringTimeTick], part := leaving } = .next s' := by
  refine ⟨fun z => ?_, _, rfl⟩
  constructor <;> revert z <;> decide +kernel

end Sys2Proof.Tests
end

section
/-! PROOF. HEALTHY follows the mode (R129).  Out of reset the two are changed together by `Ev.changeMode` alone, so every
operation of a part out of reset keeps `Part.HealthyLive`: the blocks that do not touch the Mode Controller by their frame
(`Part.outer`), a raise, an ARM and a change of mode by the mode change in which they end.  The resets, which leave that
invariant, are read off at the end, with the commands. -/

namespace Sys2Proof.Machine

/-- The part is out of reset and HEALTHY follows its mode (R129). -/
def Part.HealthyLive (p : Part) : Prop := p.lines.inReset = false ∧ p.HealthyFollowsMode

theorem Part.HealthyLive.follows {p : Part} (h : p.HealthyLive) : p.HealthyFollowsMode := h.2

/-- The invariant reads the reset, the mode and HEALTHY only. -/
theorem Part.HealthyLive.of_same {p q : Part} (h : p.HealthyLive) (hr : q.lines.inReset = p.lines.inReset)
    (hm : q.mc.mode = p.mc.mode) (hh : q.mc.healthy = p.mc.healthy) : q.HealthyLive := by
  unfold Part.HealthyLive Part.HealthyFollowsMode at *
  rw [hr, hm, hh]
  exact h

/-- What keeps the lines and the Mode Controller keeps the invariant. -/
theorem Part.HealthyLive.of_blocks {p q : Part} (h : p.HealthyLive) (hl : q.lines = p.lines) (hm : q.mc = p.mc) :
    q.HealthyLive := h.of_same (by rw [hl]) (by rw [hm]) (by rw [hm])

/-- What keeps the outer part keeps the invariant. -/
theorem Part.HealthyLive.of_outer {p q : Part} (h : p.HealthyLive) (ho : q.outer = p.outer) : q.HealthyLive :=
  h.of_blocks (Part.outer_lines ho) (Part.outer_mc ho)

theorem Part.HealthyLive.modRing {p : Part} (h : p.HealthyLive) (f : RingPath → RingPath) : (p.modRing f).HealthyLive :=
  h.of_blocks rfl rfl

theorem Part.HealthyLive.modMgmt {p : Part} (h : p.HealthyLive) (f : Mgmt → Mgmt) : (p.modMgmt f).HealthyLive :=
  h.of_blocks rfl rfl

theorem Part.HealthyLive.modCounters {p : Part} (h : p.HealthyLive) (f : Counters → Counters) :
    (p.modCounters f).HealthyLive := h.of_blocks rfl rfl

theorem Part.HealthyLive.setStore {p : Part} (h : p.HealthyLive) (t : Store) : { p with store := t }.HealthyLive :=
  h.of_blocks rfl rfl

theorem Ev.mod_healthyLive {e : Ev} (h : e.p.HealthyLive) {f : Part → Part}
    (hf : ∀ p : Part, p.HealthyLive → (f p).HealthyLive) : (e.mod f).p.HealthyLive := hf e.p h

/-- A fold of steps that keep the outer part keeps the invariant. -/
theorem Ev.foldl_healthyLive {α : Type} {f : Ev → α → Ev} (hf : ∀ e a, (f e a).p.outer = e.p.outer) (l : List α) {e : Ev}
    (h : e.p.HealthyLive) : (l.foldl f e).p.HealthyLive := h.of_outer (Ev.foldl_outer f hf l e)

/-! ### Changes of mode and causes (R126, R129 to R131) -/

/-- A change of mode out of reset sets HEALTHY by the new mode, whatever it was (R129). -/
theorem Ev.changeMode_healthyLive {e : Ev} (h : e.p.HealthyLive) (m : Mode) : (e.changeMode m).p.HealthyLive := by
  obtain ⟨hr, _⟩ := h
  have hlines : (e.changeMode m).p.lines = e.p.lines := rfl
  have hhealthy : (e.changeMode m).p.mc.healthy = (e.changeMode m).p.mc.mode.running := rfl
  refine ⟨by rw [hlines, hr], ?_⟩
  unfold Part.HealthyFollowsMode
  rw [hlines, hr, hhealthy, Bool.not_false, Bool.and_true]

theorem Ev.clearLatch_healthyLive {e : Ev} (h : e.p.HealthyLive) : e.clearLatch.p.HealthyLive := h.of_same rfl rfl rfl

/-- One raise takes the mode to STOPPED by a change of mode, or leaves mode and HEALTHY as they are (R131). -/
theorem Ev.applyRaise_healthyLive {e : Ev} (h : e.p.HealthyLive) (r : Raise) : (e.applyRaise r).p.HealthyLive := by
  by_cases hc : e.p.mc.mode = .config
  · rw [Ev.applyRaise_config _ _ hc]
    exact h
  · obtain ⟨hmc, _, _, _, _, hlines, _⟩ := e.raiseBody_spec r.cause
    have hbody : (e.raiseBody r.cause).p.HealthyLive :=
      h.of_same (by rw [hlines]) (by rw [hmc]; rfl) (by rw [hmc]; rfl)
    rw [Ev.applyRaise_eq _ _ hc]
    generalize e.raiseBody r.cause = f at hbody
    have hrecorded (t : RingTime) (b : EventBody) : (f.record t none none b).p.HealthyLive :=
      hbody.of_outer (Part.queueEvent_outer ..)
    dsimp only
    split
    · exact Ev.changeMode_healthyLive (hrecorded _ _) .stopped
    · exact hrecorded _ _

theorem Ev.applyRaises_healthyLive {e : Ev} (h : e.p.HealthyLive) : e.applyRaises.p.HealthyLive :=
  List.foldlRecOn (motive := fun e : Ev => e.p.HealthyLive) e.raised Ev.applyRaise h
    (fun _ he r _ => Ev.applyRaise_healthyLive he r)

/-! ### The end of an event -/

theorem Ev.close_healthyLive {e : Ev} (h : e.p.HealthyLive) : e.close.HealthyLive := h.of_outer e.close_outer

theorem Ev.finish_healthyLive {e : Ev} (h : e.p.HealthyLive) : e.finish.HealthyLive :=
  Ev.close_healthyLive (Ev.applyRaises_healthyLive (h.of_outer e.recordDispatches_outer))

/-! ### Requests (chapters 1, 7 and 9) -/

/-- Entering CONFIG ends in a change of mode, and nothing before it begins a reset (R128). -/
theorem Ev.enterConfig_healthyLive {e : Ev} (h : e.p.HealthyLive) : e.enterConfig.p.HealthyLive := by
  unfold Ev.enterConfig
  refine Ev.changeMode_healthyLive (Ev.clearLatch_healthyLive (Ev.mod_healthyLive ?_ ?blocks)) .config
  · refine Ev.foldl_healthyLive ?switches _ (Ev.foldl_healthyLive ?trains _ (Ev.foldl_healthyLive ?zones _ h))
    case zones => exact fun e z => by simp
    case trains => exact fun e x => by simp
    case switches => exact fun e i => by simp
  case blocks => exact fun p hp => hp.of_blocks rfl rfl

theorem Ev.armZone_outer (e : Ev) (z : ZoneId) : (e.armZone z).p.outer = e.p.outer := by
  unfold Ev.armZone
  split <;> simp

/-- The e-stop memories that ARM sets are no part of the invariant (R133). -/
theorem Part.armEstop_healthyLive {p : Part} (h : p.HealthyLive) (i : EntryId) : (p.armEstop i).HealthyLive := by
  unfold Part.armEstop
  split
  · exact h
  · exact h.of_same rfl rfl rfl

/-- ARM ends in a change of mode, and nothing before it begins a reset (R16). -/
theorem Ev.arm_healthyLive {e : Ev} (h : e.p.HealthyLive) : e.arm.p.HealthyLive := by
  unfold Ev.arm
  refine Ev.changeMode_healthyLive (Ev.mod_healthyLive (Ev.mod_healthyLive ?_ ?blocks) ?estops) .stopped
  · refine Ev.foldl_healthyLive ?switches _ (Ev.foldl_healthyLive ?trains _ (Ev.foldl_healthyLive ?zones _ h))
    case zones => exact Ev.armZone_outer
    case trains => exact fun e x => by simp
    case switches => exact fun e i => by simp
  case blocks => exact fun p hp => hp.of_blocks rfl rfl
  case estops =>
    exact fun p hp => List.foldlRecOn (motive := Part.HealthyLive) allEntries Part.armEstop hp
      (fun _ hq i _ => Part.armEstop_healthyLive hq i)

theorem Part.forgetEstop_healthyLive {p : Part} (h : p.HealthyLive) (slot : Slot) : (p.forgetEstop slot).HealthyLive := by
  cases slot with
  | estop i => exact h.of_same rfl rfl rfl
  | node | zone | route | switch | placement | params => exact h

theorem Part.resetHealth_healthyLive {p : Part} (h : p.HealthyLive) (item : HealthItem) :
    (p.resetHealth item).HealthyLive := by
  cases item <;> exact h.of_blocks rfl rfl

theorem Part.setMode_healthyLive {p : Part} (h : p.HealthyLive) (b : Byte) : (p.setMode b).ev.p.HealthyLive := by
  have hrunning (m : Mode) : (p.setRunning m).ev.p.HealthyLive := by
    unfold Part.setRunning
    split
    · exact Ev.changeMode_healthyLive (h.of_outer (Ev.removeRequests_outer ..)) .runManual
    · exact Ev.changeMode_healthyLive (e := .start p) h .runAuto
    · exact h
  have hmaint : p.setMaint.ev.p.HealthyLive := by
    unfold Part.setMaint
    split
    · exact h
    split
    · exact h
    split
    · exact h
    · exact Ev.changeMode_healthyLive (Ev.clearLatch_healthyLive (e := .start p) h) .maint
  have hconfig : p.setConfig.ev.p.HealthyLive := by
    unfold Part.setConfig
    split
    · exact h
    split
    · exact h
    · exact Ev.enterConfig_healthyLive (e := .start p) h
  unfold Part.setMode
  split
  · exact h
  · exact h
  · split
    · exact h
    · split
      · exact hmaint
      · exact hconfig
      · exact hrunning _

theorem Part.arm_healthyLive {p : Part} (h : p.HealthyLive) : p.arm.ev.p.HealthyLive := by
  unfold Part.arm
  split
  · exact h
  split
  · exact h
  split
  · exact h
  split
  · exact h
  · exact Ev.arm_healthyLive (e := .start p) h

theorem Part.restore_healthyLive {p : Part} (h : p.HealthyLive) (b : Byte) : (p.restore b).ev.p.HealthyLive := by
  unfold Part.restore
  split
  · exact h
  split
  · exact h
  split
  · exact h
  · exact h
  · exact h
  · exact Ev.changeMode_healthyLive (Ev.clearLatch_healthyLive (e := .start p) h) _

theorem Part.stop_healthyLive {p : Part} (h : p.HealthyLive) : p.stop.ev.p.HealthyLive := by
  unfold Part.stop
  split <;> exact h

theorem Part.tableWrite_healthyLive {p : Part} (h : p.HealthyLive) (table index loaded : Byte) (body : List Byte) :
    (p.tableWrite table index loaded body).ev.p.HealthyLive := by
  have hstore (t : Store) (slot : Slot) : ({ p with store := t }.forgetEstop slot).HealthyLive :=
    Part.forgetEstop_healthyLive (h.setStore t) slot
  have hslot (slot : Slot) (l : Bool) : (p.writeSlot slot l body).ev.p.HealthyLive := by
    unfold Part.writeSlot
    split
    · exact hstore _ slot
    · split
      · exact h
      · exact hstore _ slot
  unfold Part.tableWrite
  split
  · exact h
  split
  · exact h
  split
  · split
    · exact h
    · exact hslot _ _
  · exact h

theorem Part.overrideRelease_healthyLive {p : Part} (h : p.HealthyLive) (zb : Byte) (epoch : BitVec 16) :
    (p.overrideRelease zb epoch).ev.p.HealthyLive := by
  have hspent : (Ev.start p).spendBudget.p.HealthyLive := h.of_same rfl rfl rfl
  have hclears (z : ZoneId) : ((Ev.start p).overrideClears z).p.HealthyLive := h.of_outer (Ev.overrideClears_outer _ z)
  unfold Part.overrideRelease
  split
  · exact h
  split
  · exact h
  unfold Part.overrideZone
  split
  · exact h
  split
  · exact hspent
  split
  · exact hspent
  dsimp only
  split
  · exact hclears _
  · split
    · exact hclears _
    · exact (hclears _).of_outer (Ev.override_outer ..)

theorem Part.reconcile_healthyLive {p : Part} (h : p.HealthyLive) (zb action tb : Byte) :
    (p.reconcile zb action tb).ev.p.HealthyLive := by
  have hplace (z : ZoneId) (x : TrainId) : (p.reconcilePlace z x).ev.p.HealthyLive := by
    unfold Part.reconcilePlace
    split
    · split
      · exact h.of_outer (Ev.place_outer ..)
      · exact h
    · exact h
  have hremove (z : ZoneId) : (p.reconcileRemove z).ev.p.HealthyLive := by
    unfold Part.reconcileRemove
    split
    · split
      · exact h
      · exact h.of_outer (Ev.remove_outer ..)
    · exact h
  have hclear (z : ZoneId) : (p.reconcileClear z).ev.p.HealthyLive := by
    unfold Part.reconcileClear
    split
    · split
      · exact h
      · exact h.of_outer (Ev.clear_outer ..)
    · exact h
  unfold Part.reconcile
  split
  · exact h
  split
  · exact h
  split
  · split
    · exact h
    · exact hplace _ _
  · exact hremove _
  · exact hclear _
  · exact h

theorem Part.setDivert_healthyLive {p : Part} (h : p.HealthyLive) (tb v : Byte) :
    (p.setDivert tb v).ev.p.HealthyLive := by
  unfold Part.setDivert
  split
  · exact h
  split
  · exact h
  · exact h
  · exact h.of_outer (Ev.setDivert_outer ..)

/-- What a request does with the part before its event ends keeps the invariant. -/
theorem Part.perform_healthyLive {p : Part} (h : p.HealthyLive) (c : Request.Code) (args : List Byte) :
    (p.perform c args).ev.p.HealthyLive := by
  cases c with
  | identify | status => exact h
  | clearFlags | countersClear | reset => exact h.of_blocks rfl rfl
  | setMode => exact Part.setMode_healthyLive h _
  | arm => exact Part.arm_healthyLive h
  | restore => exact Part.restore_healthyLive h _
  | stop => exact Part.stop_healthyLive h
  | tableWrite => exact Part.tableWrite_healthyLive h _ _ _ _
  | tableRead => simp only [Part.perform, Part.tableRead]; split <;> exact h
  | tablesErase =>
    simp only [Part.perform, Part.tablesErase]
    split
    · exact h
    · exact h.of_blocks rfl rfl
  | queryZone => simp only [Part.perform, Part.queryZone]; split <;> exact h
  | queryTrain => simp only [Part.perform, Part.queryTrain]; split <;> exact h
  | overrideRelease => exact Part.overrideRelease_healthyLive h _ _
  | reconcile => exact Part.reconcile_healthyLive h _ _ _
  | setDivert => exact Part.setDivert_healthyLive h _ _
  | eventCtrl =>
    simp only [Part.perform, Part.eventCtrl]
    split <;> exact h.of_blocks rfl rfl
  | countersRead => simp only [Part.perform, Part.countersRead]; split <;> exact h
  | healthRead => simp only [Part.perform, Part.healthRead]; split <;> exact h
  | healthReset =>
    simp only [Part.perform, Part.healthReset]
    split
    · exact h
    · exact Part.resetHealth_healthyLive h _

/-- A request keeps the invariant, whether it is taken, counted or discarded (R163). -/
theorem Part.takeRequest_healthyLive {p : Part} (h : p.HealthyLive) (tag code : Byte) (args : List Byte) :
    (p.takeRequest tag code args).HealthyLive := by
  have hanswer : (p.answer code args).ev.p.HealthyLive := by
    unfold Part.answer
    split
    · exact h
    split
    · exact h
    · exact Part.perform_healthyLive h _ args
  unfold Part.takeRequest
  split
  · exact h
  split
  · exact h.of_blocks rfl rfl
  · exact (Ev.finish_healthyLive hanswer).of_blocks rfl rfl

/-! ### Expiries (R51) -/

theorem Part.takeTrap_healthyLive {p : Part} (h : p.HealthyLive) (z : ZoneId) : (p.takeTrap z).HealthyLive := by
  unfold Part.takeTrap
  dsimp only
  split
  · split
    · exact Ev.finish_healthyLive (h.of_outer (Ev.expireTrap_outer ..))
    · exact h
  · exact h

theorem Part.takeTransit_healthyLive {p : Part} (h : p.HealthyLive) (z : ZoneId) : (p.takeTransit z).HealthyLive := by
  unfold Part.takeTransit
  dsimp only
  split
  · split
    · exact Ev.finish_healthyLive ((h.of_outer (Ev.fault_outer ..)).of_outer (Part.modTrain_outer ..))
    · exact h
  · exact h

theorem Part.takeRelease_healthyLive {p : Part} (h : p.HealthyLive) (z : ZoneId) : (p.takeRelease z).HealthyLive := by
  unfold Part.takeRelease
  dsimp only
  split
  · split
    · exact Ev.finish_healthyLive (h.of_outer (Ev.fault_outer ..))
    · exact h
  · exact h

theorem Part.takeGap_healthyLive {p : Part} (h : p.HealthyLive) : p.takeGap.HealthyLive := by
  unfold Part.takeGap
  split
  · exact Ev.finish_healthyLive (h.of_blocks rfl rfl)
  · exact h

theorem Part.takeSwitchTimer_healthyLive {p : Part} (h : p.HealthyLive) : p.takeSwitchTimer.HealthyLive := by
  unfold Part.takeSwitchTimer
  split
  · exact Ev.finish_healthyLive (h.of_outer (Ev.switchTimeout_outer _))
  · exact h

theorem Part.takeSupervision_healthyLive {p : Part} (h : p.HealthyLive) (z : ZoneId) :
    (p.takeSupervision z).HealthyLive := by
  unfold Part.takeSupervision
  split
  · split
    · exact Ev.finish_healthyLive (h.of_outer (Ev.takeSupervision_outer ..))
    · exact h
  · exact h

theorem Part.takeRefusal_healthyLive {p : Part} (h : p.HealthyLive) (z : ZoneId) : (p.takeRefusal z).HealthyLive := by
  unfold Part.takeRefusal
  split
  · split
    · split
      · exact Ev.finish_healthyLive (h.of_outer (Ev.takeRefusal_outer ..))
      · exact h
    · exact h
  · exact h

theorem Part.takeBroadcast_healthyLive {p : Part} (h : p.HealthyLive) : p.takeBroadcast.HealthyLive := by
  unfold Part.takeBroadcast
  split
  · exact h.of_blocks rfl rfl
  · exact h

theorem Part.takeSilence_healthyLive {p : Part} (h : p.HealthyLive) : p.takeSilence.HealthyLive := by
  unfold Part.takeSilence
  split
  · split
    · exact Ev.finish_healthyLive (h.of_blocks rfl rfl)
    · exact h
  · exact h

theorem Part.takeLink_healthyLive {p : Part} (h : p.HealthyLive) : p.takeLink.HealthyLive := by
  unfold Part.takeLink
  split
  · split
    · exact Ev.finish_healthyLive (h.of_blocks rfl rfl)
    · exact h
  · exact h

theorem Part.takeLinkRepetition_healthyLive {p : Part} (h : p.HealthyLive) : p.takeLinkRepetition.HealthyLive := by
  unfold Part.takeLinkRepetition
  split
  · exact h.of_blocks rfl rfl
  · exact h

theorem Part.takeEdgeDue_healthyLive {p : Part} (h : p.HealthyLive) : p.takeEdgeDue.HealthyLive := by
  refine Part.takeGap_healthyLive (List.foldlRecOn (motive := Part.HealthyLive) allZones Part.takeZoneDue h ?_)
  intro q hq z _
  exact Part.takeRelease_healthyLive
    (Part.takeTrap_healthyLive (Part.takeTransit_healthyLive (Part.takeTrap_healthyLive hq z) z) z) z

/-- All that is due together keeps the invariant, since each expiry does (R51). -/
theorem Part.takeDue_healthyLive {p : Part} (h : p.HealthyLive) : p.takeDue.HealthyLive := by
  have hrefusals := List.foldlRecOn (motive := Part.HealthyLive) allZones Part.takeRefusal
    (Part.takeEdgeDue_healthyLive h) (fun _ hq z _ => Part.takeRefusal_healthyLive hq z)
  have hsupervised := List.foldlRecOn (motive := Part.HealthyLive) allZones Part.takeSupervision
    (Part.takeSwitchTimer_healthyLive hrefusals) (fun _ hq z _ => Part.takeSupervision_healthyLive hq z)
  exact Part.takeLinkRepetition_healthyLive
    (Part.takeLink_healthyLive (Part.takeSilence_healthyLive (Part.takeBroadcast_healthyLive hsupervised)))

theorem Part.tick_healthyLive {p : Part} (h : p.HealthyLive) : p.tick.HealthyLive :=
  Part.takeDue_healthyLive (h.modRing _)

/-! ### Frames that arrive (R145 to R149, R155) -/

theorem Part.noteStart_healthyLive {p : Part} (h : p.HealthyLive) (port : InPort) : (p.noteStart port).HealthyLive := by
  cases port <;> exact h.of_blocks rfl rfl

theorem Part.drop_healthyLive {p : Part} (h : p.HealthyLive) (port : InPort) (reason : DropReason) :
    (p.drop port reason).HealthyLive := (h.modCounters _).modMgmt _

theorem Part.startSymbol_healthyLive {p : Part} (h : p.HealthyLive) (port : InPort) :
    (p.startSymbol port).HealthyLive := by
  unfold Part.startSymbol
  split
  · exact h
  · exact (Part.noteStart_healthyLive h port).modRing _
  · exact Part.noteStart_healthyLive (Part.drop_healthyLive h port .fragment) port

theorem Part.fragmentTimeout_healthyLive {p : Part} (h : p.HealthyLive) (port : InPort) :
    (p.fragmentTimeout port).HealthyLive := by
  unfold Part.fragmentTimeout
  split <;> exact h.of_blocks rfl rfl

theorem Part.lineIdle_healthyLive {p : Part} (h : p.HealthyLive) (port : InPort) : (p.lineIdle port).HealthyLive := by
  unfold Part.lineIdle
  split <;> exact h.of_blocks rfl rfl

theorem Part.queueDown_healthyLive {p : Part} (h : p.HealthyLive) (f : Frame) : (p.queueDown f).HealthyLive := by
  unfold Part.queueDown
  split <;> exact h.of_blocks rfl rfl

theorem Part.queueUp_healthyLive {p : Part} (h : p.HealthyLive) (f : Frame) : (p.queueUp f).HealthyLive := by
  unfold Part.queueUp
  split <;> exact h.of_blocks rfl rfl

theorem Part.offerTime_healthyLive {p : Part} (h : p.HealthyLive) (c : RingTime) : (p.offerTime c).HealthyLive := by
  unfold Part.offerTime
  dsimp only
  refine Ev.finish_healthyLive ?_
  split <;> exact h.of_blocks rfl rfl

/-- An e-stop reading changes its memory and raises a cause that waits for the end of the report (R133). -/
theorem Ev.testEstop_healthyLive {e : Ev} (h : e.p.HealthyLive) (n : NodeId) (i : EntryId) :
    (e.testEstop n i).p.HealthyLive := by
  unfold Ev.testEstop
  split
  · exact h
  split
  · dsimp only
    split <;> exact h.of_same rfl rfl rfl
  · exact h

theorem Ev.testEstops_healthyLive {e : Ev} (h : e.p.HealthyLive) (n : NodeId) : (e.testEstops n).p.HealthyLive :=
  List.foldlRecOn (motive := fun e : Ev => e.p.HealthyLive) allEntries (Ev.testEstop n) h
    (fun _ he i _ => Ev.testEstop_healthyLive he n i)

theorem Ev.trackReport_healthyLive {e : Ev} (h : e.p.HealthyLive) (r : Report) : (e.trackReport r).p.HealthyLive := by
  have hcounter : ((e.mod (fun p => p.setLevels r)).checkCounter r).p.HealthyLive := by
    have hlevels : (e.mod (fun p => p.setLevels r)).p.HealthyLive := h.of_blocks rfl rfl
    unfold Ev.checkCounter
    refine Ev.mod_healthyLive ?_ (fun p hp => hp.of_blocks rfl rfl)
    split
    · exact (hlevels.of_outer (Ev.edgesLost_outer ..)).of_outer (Ev.faultLost_outer ..)
    · exact hlevels
  unfold Ev.trackReport
  dsimp only
  split
  · exact hcounter
  · exact hcounter.of_outer (Ev.takeEdges_outer ..)

/-- After the edges of a report only its causes reach the Mode Controller (R26). -/
theorem Ev.readReport_healthyLive {e : Ev} (h : e.p.HealthyLive) (n : NodeId) : (e.readReport n).p.HealthyLive := by
  have hsupervised : ((e.recordDispatches.superviseDevices n).superviseLocks n).p.HealthyLive :=
    ((h.of_outer (Ev.recordDispatches_outer _)).of_outer (Ev.superviseDevices_outer ..)).of_outer
      (Ev.superviseLocks_outer ..)
  have hraised := Ev.applyRaises_healthyLive (Ev.testEstops_healthyLive hsupervised n)
  have hread := (hraised.of_outer (Ev.resumeClaim_outer _ n)).of_outer (Ev.testAllReady_outer _ n)
  unfold Ev.readReport
  dsimp only
  split
  · rw [Ev.woken_p]
    exact hread
  · exact hread

theorem Part.takeReport_healthyLive {p : Part} (h : p.HealthyLive) (r : Report) : (p.takeReport r).HealthyLive :=
  Part.takeEdgeDue_healthyLive
    (Ev.close_healthyLive (Ev.readReport_healthyLive (Ev.trackReport_healthyLive (e := .start p) h r) r.node))

theorem Part.takeCin_healthyLive {p : Part} (h : p.HealthyLive) (f : Frame) : (p.takeCin f).HealthyLive := by
  have hcounted : (p.countReceived .cIn).HealthyLive := h.of_blocks rfl rfl
  unfold Part.takeCin
  dsimp only
  split
  · split
    · exact Part.queueDown_healthyLive (Part.takeDue_healthyLive (Part.offerTime_healthyLive hcounted _)) f
    · exact Part.queueDown_healthyLive hcounted f
  · split
    · split
      · exact Part.takeRequest_healthyLive hcounted _ _ _
      · exact hcounted.of_blocks rfl rfl
    · exact Part.queueDown_healthyLive hcounted f

theorem Part.takeFin_healthyLive {p : Part} (h : p.HealthyLive) (f : Frame) : (p.takeFin f).HealthyLive := by
  have hrestored : (p.countReceived .fIn).restoreLink.HealthyLive := by
    unfold Part.restoreLink
    split <;> exact h.of_blocks rfl rfl
  unfold Part.takeFin
  dsimp only
  split
  · exact Part.queueUp_healthyLive (Part.takeReport_healthyLive hrestored _) f
  · exact Part.queueUp_healthyLive hrestored f

theorem Part.takeFrame_healthyLive {p : Part} (h : p.HealthyLive) (port : InPort) (rx : List RxSymbol) :
    (p.takeFrame port rx).HealthyLive := by
  unfold Part.takeFrame
  split
  · exact h.of_blocks rfl rfl
  · split
    · exact Part.takeCin_healthyLive h _
    · exact Part.takeFin_healthyLive h _

/-- A port takes a frame as its classifier does (R145). -/
theorem Part.receive_healthyLive {p : Part} (h : p.HealthyLive) (port : InPort) {take : Part → Part}
    (htake : ∀ q : Part, q.HealthyLive → (take q).HealthyLive) : (p.receive port take).HealthyLive := by
  unfold Part.receive
  split
  · exact htake _ (h.of_blocks rfl rfl)
  · exact h

/-! ### The Command Filter (R92 to R96) -/

/-- The event of a frame that went through the filter. -/
def Filtered.ev : Filtered → Ev
  | .dropped e _ => e
  | .sent e _ _ => e

theorem Filtered.sent_ev (e : Ev) (f : Frame) (changed : Bool) : (Filtered.sent e f changed).ev = e := rfl

theorem Filtering.result_ev (x : Filtering) (f : Frame) (c : Command) : (x.result f c).ev = x.ev := by
  unfold Filtering.result
  split <;> rfl

theorem Filtering.holdChannel_outer (taken : Part) (n : NodeId) (c : Command) (x : Filtering) (ch : Channel) :
    (x.holdChannel taken n c ch).ev.p.outer = x.ev.p.outer := by
  unfold Filtering.holdChannel
  split
  · rfl
  · dsimp only
    split <;> simp

theorem Ev.filterHold_outer (e : Ev) (n : NodeId) (c : Command) : (e.filterHold n c).ev.p.outer = e.p.outer :=
  List.foldlRecOn (motive := fun x : Filtering => x.ev.p.outer = e.p.outer) allChannels _ rfl
    (fun x hx ch _ => (Filtering.holdChannel_outer e.p n c x ch).trans hx)

theorem Ev.filterSwitch_outer (e : Ev) (i : SwitchId) (rec : SwitchRec) (c : Command) :
    (e.filterSwitch i rec c).ev.p.outer = e.p.outer := by
  unfold Ev.filterSwitch
  dsimp only
  split
  · dsimp only
    split <;> simp
  · split <;> rfl

theorem Ev.filterNode_outer (e : Ev) (n : NodeId) (f : Frame) (c : Command) :
    (e.filterNode n f c).ev.p.outer = e.p.outer := by
  unfold Ev.filterNode
  split
  · rw [Filtering.result_ev, Ev.filterHold_outer]
  · split
    · rfl
    · split
      · rfl
      · rw [Filtering.result_ev, Ev.filterSwitch_outer]
  · rfl
  · rfl
  · rfl
  · split <;> rfl

/-- The filter is outside the Mode Controller: whatever it makes of a frame, the outer part stands. -/
theorem Ev.filter_outer (e : Ev) (f : Frame) : (e.filter f).ev.p.outer = e.p.outer := by
  unfold Ev.filter
  split
  · rfl
  · split
    · split
      · unfold Ev.filterConfig
        split <;> rfl
      · exact e.filterNode_outer _ f _
    · split
      · rfl
      · split
        · rfl
        · split
          · rw [Filtered.sent_ev, Ev.controllerHold_outer]
          · rfl

/-! ### Frames that leave (R151, R153) -/

theorem Part.sendFout_healthyLive {p : Part} (h : p.HealthyLive) (f : Frame) (overridden : Bool) :
    (p.sendFout f overridden).HealthyLive := (h.modRing _).modCounters _

theorem Part.sendBroadcast_healthyLive {p : Part} (h : p.HealthyLive) : p.sendBroadcast.HealthyLive :=
  Ev.finish_healthyLive
    ((Part.sendFout_healthyLive (h.modRing _) broadcastHold false).of_outer (Ev.broadcastHeld_outer (.start _)))

theorem Part.sendDown_healthyLive (n : Nat) {p : Part} (h : p.HealthyLive) : (Part.sendDown n p).HealthyLive := by
  induction n generalizing p with
  | zero => exact h
  | succ n ih =>
    have hpopped : p.popDown.HealthyLive := h.modRing _
    unfold Part.sendDown
    split
    · exact h
    · rename_i f _ _
      split
      · have hfiltered : ((Ev.start p.popDown).filter f).ev.p.HealthyLive := hpopped.of_outer (Ev.filter_outer _ f)
        split
        · rename_i hdropped
          rw [hdropped] at hfiltered
          exact ih (hfiltered.modCounters _)
        · rename_i hsent
          rw [hsent] at hfiltered
          exact Ev.finish_healthyLive (Ev.mod_healthyLive hfiltered fun _ hq => Part.sendFout_healthyLive hq _ _)
      · exact Part.sendFout_healthyLive hpopped f false

theorem Part.chooseFout_healthyLive {p : Part} (h : p.HealthyLive) : p.chooseFout.HealthyLive := by
  unfold Part.chooseFout
  split
  · exact h
  split
  · exact Part.sendBroadcast_healthyLive h
  · exact Part.sendDown_healthyLive _ h

theorem Part.chooseDown_healthyLive {p : Part} (h : p.HealthyLive) (command : Bool) :
    (p.chooseDown command).HealthyLive := by
  unfold Part.chooseDown
  split
  · exact Part.chooseFout_healthyLive h
  · exact h

theorem Part.chooseBroadcast_healthyLive {p : Part} (h : p.HealthyLive) : p.chooseBroadcast.HealthyLive := by
  unfold Part.chooseBroadcast
  split
  · exact Part.chooseFout_healthyLive h
  · exact h

theorem Part.chooseCout_healthyLive {p : Part} (h : p.HealthyLive) : p.chooseCout.HealthyLive := by
  unfold Part.chooseCout
  split
  · exact h
  · cases p.coutChoice <;> exact h.of_blocks rfl rfl

theorem Part.chooseFrom_healthyLive {p : Part} (h : p.HealthyLive) (source : CoutSource) :
    (p.chooseFrom source).HealthyLive := by
  unfold Part.chooseFrom
  split
  · exact Part.chooseCout_healthyLive h
  · exact h

/-! ### Resets and lines (R129, R134, R135, R162, R186) -/

/-- A reset takes HEALTHY down, in whatever mode it begins (R129). -/
theorem Part.beginReset_healthyFollowsMode (p : Part) (cause : ResetCause) :
    (p.beginReset cause).HealthyFollowsMode := by
  have hhealthy : (p.beginReset cause).mc.healthy = false := rfl
  have hreset : (p.beginReset cause).lines.inReset = true := rfl
  unfold Part.HealthyFollowsMode
  rw [hhealthy, hreset, Bool.not_true, Bool.and_false]

/-- A reset ends in CONFIG with HEALTHY down (R162). -/
theorem Part.endReset_healthyFollowsMode {p : Part} (h : p.HealthyFollowsMode) (supplyWarn : Bool) :
    (p.endReset supplyWarn).HealthyFollowsMode := by
  unfold Part.endReset
  split
  · exact rfl
  · exact h

theorem Part.resetSent_healthyFollowsMode {p : Part} (h : p.HealthyFollowsMode) : p.resetSent.HealthyFollowsMode := by
  unfold Part.resetSent
  split
  · exact p.beginReset_healthyFollowsMode .resetRequest
  · exact h

/-- The end of a transmission frees its port, but that of the RESET response begins a reset (R151, R167). -/
theorem Part.endTransmission_healthyFollowsMode {p : Part} (h : p.HealthyLive) (port : OutPort) :
    (p.endTransmission port).HealthyFollowsMode := by
  unfold Part.endTransmission
  split
  · split
    · exact (Part.chooseFout_healthyLive (h.modRing _)).follows
    · exact h.follows
  · split
    · exact Part.resetSent_healthyFollowsMode h.follows
    · split
      · exact (Part.chooseCout_healthyLive (h.modRing _)).follows
      · exact h.follows

/-- The key line raises KEY out of reset only; in reset its level alone changes (R134). -/
theorem Part.setKey_healthyFollowsMode {p : Part} (h : p.HealthyFollowsMode) (active : Bool) :
    (p.setKey active).HealthyFollowsMode := by
  have hkey : { p with lines := { p.lines with maintKey := active } }.HealthyFollowsMode := h
  unfold Part.setKey
  dsimp only
  split
  · rename_i hlost
    simp only [Bool.and_eq_true, Bool.not_eq_true'] at hlost
    obtain ⟨_, hout⟩ := hlost
    have hlive : { p with lines := { p.lines with maintKey := active } }.HealthyLive := ⟨hout, hkey⟩
    refine Part.HealthyLive.follows (Ev.finish_healthyLive ?_)
    rw [Ev.raise_p, Ev.start_p]
    exact hlive
  · exact hkey

theorem Part.beginWarning_healthyLive {p : Part} (h : p.HealthyLive) : p.beginWarning.HealthyLive := by
  unfold Part.beginWarning
  split
  · exact h
  · exact Ev.finish_healthyLive (h.of_same rfl rfl rfl)

theorem Part.endWarning_healthyLive {p : Part} (h : p.HealthyLive) : p.endWarning.HealthyLive := h.of_same rfl rfl rfl

/-! ### The commands -/

/-- An operation of the part that keeps HEALTHY with the mode. -/
def KeepsHealthy (f : Part → Part) : Prop := ∀ p : Part, p.HealthyFollowsMode → (f p).HealthyFollowsMode

/-- A command that acts out of reset only has to keep HEALTHY there. -/
theorem KeepsHealthy.live {f : Part → Part} (hf : ∀ p : Part, p.HealthyLive → (f p).HealthyFollowsMode) :
    KeepsHealthy (fun p => p.live f) := by
  intro p h
  show (p.live f).HealthyFollowsMode
  unfold Part.live
  split
  · exact h
  · rename_i hout
    exact hf p ⟨by simpa using hout, h⟩

/-- A frame row acts out of reset on a receiving port. -/
theorem KeepsHealthy.received (port : InPort) {take : Part → Part}
    (htake : ∀ q : Part, q.HealthyLive → (take q).HealthyLive) : KeepsHealthy (fun p => p.live (fun p => p.receive port take)) :=
  .live fun _ h => (Part.receive_healthyLive h port htake).follows

theorem KeepsHealthy.onCin (f : Frame) : KeepsHealthy (fun p => p.live (fun p => p.receive .cIn (fun p => p.takeCin f))) :=
  .received .cIn fun _ h => Part.takeCin_healthyLive h f

theorem KeepsHealthy.onFin (f : Frame) : KeepsHealthy (fun p => p.live (fun p => p.receive .fIn (fun p => p.takeFin f))) :=
  .received .fIn fun _ h => Part.takeFin_healthyLive h f

/-- Every command is one operation on the part, and that operation keeps HEALTHY with the mode. -/
theorem exec_eq_onPart (i : Instr) : ∃ f : Part → Part, KeepsHealthy f ∧ ∀ s : State, exec i s = s.onPart f := by
  cases i with
  | frameStart port => exact ⟨_, .live fun _ h => (Part.startSymbol_healthyLive h port).follows, fun _ => rfl⟩
  | fragmentTimeout port => exact ⟨_, .live fun _ h => (Part.fragmentTimeout_healthyLive h port).follows, fun _ => rfl⟩
  | frameDrop port rx => exact ⟨_, .received port fun _ h => Part.takeFrame_healthyLive h port rx, fun _ => rfl⟩
  | lineIdleAfterReset port => exact ⟨_, .live fun _ h => (Part.lineIdle_healthyLive h port).follows, fun _ => rfl⟩
  | cycleStart f | commandFrame f | cinFrameForward f => exact ⟨_, .onCin f, fun _ => rfl⟩
  | reportFrame f | finFrameForward f => exact ⟨_, .onFin f, fun _ => rfl⟩
  | commandTransmit => exact ⟨_, .live fun _ h => (Part.chooseDown_healthyLive h true).follows, fun _ => rfl⟩
  | foutFrameTransmit => exact ⟨_, .live fun _ h => (Part.chooseDown_healthyLive h false).follows, fun _ => rfl⟩
  | broadcastHoldFrame => exact ⟨_, .live fun _ h => (Part.chooseBroadcast_healthyLive h).follows, fun _ => rfl⟩
  | linkFaultFrame => exact ⟨_, .live fun _ h => (Part.chooseFrom_healthyLive h .linkFault).follows, fun _ => rfl⟩
  | mgmtResponse => exact ⟨_, .live fun _ h => (Part.chooseFrom_healthyLive h .responses).follows, fun _ => rfl⟩
  | coutUpstreamTransmit => exact ⟨_, .live fun _ h => (Part.chooseFrom_healthyLive h .upstream).follows, fun _ => rfl⟩
  | eventFrame => exact ⟨_, .live fun _ h => (Part.chooseFrom_healthyLive h .events).follows, fun _ => rfl⟩
  | transmissionEnd port => exact ⟨_, .live fun _ h => Part.endTransmission_healthyFollowsMode h port, fun _ => rfl⟩
  | resetResponseSent => exact ⟨_, .live fun _ h => Part.resetSent_healthyFollowsMode h.follows, fun _ => rfl⟩
  | ringTimeTick => exact ⟨_, .live fun _ h => (Part.tick_healthyLive h).follows, fun _ => rfl⟩
  | trapExpiry z => exact ⟨_, .live fun _ h => (Part.takeTrap_healthyLive h z).follows, fun _ => rfl⟩
  | transitExpiry z => exact ⟨_, .live fun _ h => (Part.takeTransit_healthyLive h z).follows, fun _ => rfl⟩
  | releaseTimer z => exact ⟨_, .live fun _ h => (Part.takeRelease_healthyLive h z).follows, fun _ => rfl⟩
  | gapExpiry => exact ⟨_, .live fun _ h => (Part.takeGap_healthyLive h).follows, fun _ => rfl⟩
  | switchTimer => exact ⟨_, .live fun _ h => (Part.takeSwitchTimer_healthyLive h).follows, fun _ => rfl⟩
  | supervisionTimer z => exact ⟨_, .live fun _ h => (Part.takeSupervision_healthyLive h z).follows, fun _ => rfl⟩
  | refusalExpiry z => exact ⟨_, .live fun _ h => (Part.takeRefusal_healthyLive h z).follows, fun _ => rfl⟩
  | broadcastRepetition => exact ⟨_, .live fun _ h => (Part.takeBroadcast_healthyLive h).follows, fun _ => rfl⟩
  | silenceTimer => exact ⟨_, .live fun _ h => (Part.takeSilence_healthyLive h).follows, fun _ => rfl⟩
  | fieldLinkTimer => exact ⟨_, .live fun _ h => (Part.takeLink_healthyLive h).follows, fun _ => rfl⟩
  | linkFaultRepetition => exact ⟨_, .live fun _ h => (Part.takeLinkRepetition_healthyLive h).follows, fun _ => rfl⟩
  | maintKeyChange active => exact ⟨_, fun _ h => Part.setKey_healthyFollowsMode h active, fun _ => rfl⟩
  | powerOn => exact ⟨_, fun p _ => p.beginReset_healthyFollowsMode .powerOn, fun _ => rfl⟩
  | resetLine => exact ⟨_, fun p _ => p.beginReset_healthyFollowsMode .resetLine, fun _ => rfl⟩
  | supplyLow => exact ⟨_, fun p _ => p.beginReset_healthyFollowsMode .supplyLow, fun _ => rfl⟩
  | supplyWarnBegin => exact ⟨_, .live fun _ h => (Part.beginWarning_healthyLive h).follows, fun _ => rfl⟩
  | supplyWarnEnd => exact ⟨_, .live fun _ h => (Part.endWarning_healthyLive h).follows, fun _ => rfl⟩
  | resetEnd supplyWarn => exact ⟨_, fun _ h => Part.endReset_healthyFollowsMode h supplyWarn, fun _ => rfl⟩
  | identify | status | clearFlags | setModeRun | setModeMaint | setModeConfig | arm | restore | stop | tableWrite
  | tableRead | tablesErase | queryZone | queryTrain | overrideRelease | reconcilePlace | reconcileRemove
  | reconcileClear | setDivert | eventCtrl | countersRead | countersClear | healthRead | healthReset | reset
  | unknownRequest | responseFull | malformedMgmtRequest => exact ⟨_, .onCin _, fun _ => rfl⟩

/-- Settles O56: a step is idle or one command, and a command is one operation that keeps HEALTHY with the mode. -/
theorem everyStepKeepsHealthyWithTheMode : Obligations.EveryStepKeepsHealthyWithTheMode := by
  unfold Obligations.EveryStepKeepsHealthyWithTheMode
  rintro ⟨pending, part⟩ s' h hs
  cases pending with
  | nil =>
    cases hs
    exact h
  | cons i rest =>
    obtain ⟨f, hkeeps, hexec⟩ := exec_eq_onPart i
    have hnext : exec i { pending := rest, part := part } = .next s' := hs
    rw [hexec] at hnext
    cases hnext
    exact hkeeps part h

end Sys2Proof.Machine
end

section
/-! PROOF. CLEAR_FLAGS (R171).  The request is one change of the sticky flags, `Part.clearStatus`, that wakes and raises
nothing, and its answer is the set of the seven flags (R170), read bit by bit. -/

namespace Sys2Proof.Machine

/-! ### Sets of enumerated members (11.1) -/

/-- A member added to a set: its bit, and the bits that were set. -/
theorem getLsbD_or_ofNat_two_pow {w : Nat} (v : BitVec w) (n i : Nat) :
    (v ||| BitVec.ofNat w (2 ^ n)).getLsbD i = (v.getLsbD i || (decide (i < w) && decide (i = n))) := by
  rw [BitVec.getLsbD_or, BitVec.getLsbD_ofNat, Nat.testBit_two_pow, decide_eq_decide.mpr (eq_comm (a := n))]

/-- Adding members one after another leaves set the bits that were set, and sets the members'. -/
theorem getLsbD_foldl_setBit {w : Nat} (members : List Nat) (v : BitVec w) (i : Nat) :
    (members.foldl (fun v n => v ||| BitVec.ofNat w (2 ^ n)) v).getLsbD i =
      (v.getLsbD i || (decide (i < w) && decide (i ∈ members))) := by
  induction members generalizing v with
  | nil => simp
  | cons n members ih =>
    rw [List.foldl_cons, ih, getLsbD_or_ofNat_two_pow]
    simp only [List.mem_cons, Bool.decide_or, Bool.and_or_distrib_left, Bool.or_assoc]

/-- Bit `i` of a set says whether `i` is a member. -/
theorem getLsbD_setBits (w : Nat) (members : List Nat) (i : Nat) :
    (setBits w members).getLsbD i = (decide (i < w) && decide (i ∈ members)) := by
  unfold setBits
  rw [getLsbD_foldl_setBit, BitVec.ofNat_eq_ofNat, BitVec.getLsbD_zero, Bool.false_or]

/-! ### The seven flags (R170) -/

/-- The flags by their codes (R170, 11.4). -/
def Part.flagOfCode (p : Part) : Nat → Bool
  | 0 => p.mgmt.frameError
  | 1 => p.mgmt.loadTainted
  | 2 => p.mgmt.evqOverflow
  | 3 => p.mgmt.healthAlert
  | 4 => decide (p.mc.budget = 0)
  | 5 => p.lines.supplyWarn
  | 6 => p.mc.latch
  | _ => false

/-- A code is among the flag numbers when its flag is set. -/
theorem Part.mem_flagNumbers (p : Part) (n : Nat) : n ∈ p.flagNumbers ↔ p.flagOfCode n = true := by
  have hbudget : p.mc.budget.val = 0 ↔ p.mc.budget = 0 := Fin.val_eq_zero_iff
  unfold Part.flagOfCode
  split
  case h_8 => -- 7 and above: codes without a flag
    simp only [Part.flagNumbers, List.mem_filterMap, List.mem_cons, List.not_mem_nil]
    grind
  all_goals simp [Part.flagNumbers, hbudget]

/-- Bit `i` of the status flags is the flag of code `i`. -/
theorem Part.getLsbD_statusFlags (p : Part) {i : Nat} (h : i < 8) : p.statusFlags.getLsbD i = p.flagOfCode i := by
  unfold Part.statusFlags
  rw [getLsbD_setBits, decide_eq_true h, Bool.true_and, Bool.eq_iff_iff, decide_eq_true_iff, p.mem_flagNumbers]

theorem mem_allNodes (n : NodeId) : n ∈ allNodes := List.mem_finRange n

theorem mem_allTrains (x : TrainId) : x ∈ allTrains := List.mem_finRange x

/-- The condition of HEALTH_ALERT: an item of the health counts is over its threshold, or a train due for service (R170). -/
theorem Part.healthCondition_iff (p : Part) :
    p.healthCondition = true ↔ (∃ n : NodeId, p.cnt.nodes[n].alerted = true) ∨
      (∃ z : ZoneId, p.cnt.devices[z].alerted = true) ∨ ∃ x : TrainId, (p.train x).serviceDue = true := by
  simp only [Part.healthCondition, Bool.or_eq_true, List.any_eq_true, mem_allNodes, mem_allZones, mem_allTrains, true_and,
    or_assoc]

/-! ### The request -/

/-- What CLEAR_FLAGS does to HEALTH_ALERT: the flag follows its condition when it is named, and stays otherwise (R171). -/
theorem Part.clearStatus_healthAlert (p : Part) (flags : Byte) :
    (p.clearStatus flags).mgmt.healthAlert = if flags.getLsbD 3 then p.healthCondition else p.mgmt.healthAlert := rfl

/-- CLEAR_FLAGS with its flags byte clears what the byte names and answers with the flags it leaves (R163, R171). -/
theorem execClearFlags_eq (s : State) (tag flags : Byte) (rest : List Byte) (h : s.part.takesRequest = true) :
    execClearFlags tag (flags :: rest) s =
      .next { s with part :=
        (((s.part.frameTaken .cIn).clearStatus flags).responded tag 0x03 (flags :: rest) .success
          [((s.part.frameTaken .cIn).clearStatus flags).statusFlags]) } := by
  have hlong : Request.Code.clearFlags.tooShort (flags :: rest) = false := by
    simp [Request.Code.tooShort, Request.Code.argBytes]
  exact State.onRequest_change s tag 0x03 (flags :: rest) _ (fun p => [p.statusFlags]) h
    (Part.answer_of _ 0x03 (flags :: rest) .clearFlags rfl hlong)

/-- Settles O43: the part after the request is `Part.clearStatus` of the part that took the frame, and the answer its
status flags. -/
theorem clearFlagsClearsTheStickyFlags : Obligations.ClearFlagsClearsTheStickyFlags := by
  unfold Obligations.ClearFlagsClearsTheStickyFlags
  intro s tag b rest h p alert
  have hbit {i : Nat} (hi : i < 8) := (p.clearStatus b).getLsbD_statusFlags hi
  refine ⟨p.clearStatus b, (p.clearStatus b).statusFlags, execClearFlags_eq s tag b rest h, rfl, ?named, ?unnamed,
    hbit (by decide), hbit (by decide), hbit (by decide), hbit (by decide), hbit (by decide), hbit (by decide),
    hbit (by decide), hbit (by decide)⟩
  case named =>
    intro hb
    rw [Part.clearStatus_healthAlert, if_pos hb]
    exact p.healthCondition_iff
  case unnamed =>
    intro hb
    rw [Part.clearStatus_healthAlert, if_neg (ne_true_of_eq_false hb)]

end Sys2Proof.Machine
end
